-- ==== Sys2Proof/Word.lean ====
section
/-! DEFINITION. The byte: every value the block handles is one byte wide (20_memory.md R44; 00_scope.md R8, R11). -/

namespace Sys2Proof

/-- `BYTE`: an 8-bit unsigned value 0..255 (00_scope.md R8, R11). -/
abbrev Byte := BitVec 8

end Sys2Proof
end

