-- ==== Sys2Proof/Config.lean ====
section
/-! DEFINITION. The parameters of the block (00_scope.md R8), each literal under its own name (93_implementation_defined.md I2).
`CRC8_TABLE` is a parameter too: its TYPE stands here, its value is a constant field of `State` (log 4), so that every
statement about all states is a statement about all tables (00_scope.md R9). `CMD_TRANSPORT` and `CRC_SPAN_MAX` do not
appear in a model at the level of typed operands (30_encoding.md R72; 92_eei_decisions.md D15; log 3). -/

namespace Sys2Proof

/-- The type of `CRC8_TABLE`: 256 bytes indexed 0..255 (00_scope.md R8; 10_state.md R26). -/
abbrev CrcTable := Vector Byte 256

/-- `START1`, frame offset 0 (R8, R60). -/
@[simp] abbrev Config.start1 : Byte := 0xAA#8
/-- `START2`, frame offset 1 (R8, R60). -/
@[simp] abbrev Config.start2 : Byte := 0x55#8
/-- `MAX_PAYLOAD` (R8). -/
@[simp] abbrev Config.maxPayload : Nat := 251
/-- `FRAME_OVERHEAD` (R8). -/
@[simp] abbrev Config.frameOverhead : Nat := 5
/-- `MAX_FRAME` (R8, R10). -/
@[simp] abbrev Config.maxFrame : Nat := 256
/-- `CRC_INIT` (R8). -/
@[simp] abbrev Config.crcInit : Byte := 0x00#8
/-- `CRC_FIRST_OFFSET`: the checksum covers the frame from its function byte on (R8, R62). -/
@[simp] abbrev Config.crcFirstOffset : Nat := 2
/-- `RGB_SUBCMD`, the sub-command tag of an RGB payload (R8, R67). -/
@[simp] abbrev Config.rgbSubcmd : Byte := 0x01#8
/-- `RGB_MAX_PIXELS` (R8, R10). -/
@[simp] abbrev Config.rgbMaxPixels : Nat := 62
/-- `RGB_PIXEL_BYTES` (R8). -/
@[simp] abbrev Config.rgbPixelBytes : Nat := 4
/-- `RGB_ID_MIN`, the smallest application LED id (R8; 92_eei_decisions.md D13). -/
@[simp] abbrev Config.rgbIdMin : Nat := 1
/-- `RGB_ID_MAX`, the largest application LED id (R8; 92_eei_decisions.md D13). -/
@[simp] abbrev Config.rgbIdMax : Nat := 256

end Sys2Proof
end

