-- ==== Sys2Proof/Syntax.lean ====
section
/-! DEFINITION. The instructions: one constructor per row of spec/opcode_table.json (30_encoding.md R64, R70), and the
form in which a command reaches the block: a command code and typed operands (R70, R72). -/

namespace Sys2Proof

/-- One entry `(id, r, g, b)` of an RGB command; `id` is the application-facing one-based LED id, a natural number
(30_encoding.md R68; 42_rgb_payload.md R140). -/
structure Pixel where
  id : Nat
  r : Byte
  g : Byte
  b : Byte
deriving DecidableEq, Repr

/-- The rows of the opcode table. The first seven are the rows of format `cmd` (30_encoding.md R70); the other eleven are the
rows of format `frame.function`, the function byte at wire frame offset 2 as the receiver takes it (R64; log 5). -/
inductive Instr where
  /-- `CRC8 data` (40_crc8.md R104). -/
  | crc8 (data : List Byte)
  /-- `ENCODE func, payload` (41_frame_encoder.md R120). -/
  | encode (func : Byte) (payload : List Byte)
  /-- `RGB_ENCODE pixels` (42_rgb_payload.md R140). -/
  | rgbEncode (pixels : List Pixel)
  /-- `RGB_DECODE payload` (42_rgb_payload.md R145). -/
  | rgbDecode (payload : List Byte)
  /-- `RX_FEED b` (43_frame_receiver.md R160, R169). -/
  | rxFeed (b : Byte)
  /-- `RX_RESET` (43_frame_receiver.md R180). -/
  | rxReset
  /-- `RX_STATE` (43_frame_receiver.md R181). -/
  | rxState
  /-- Function code 0x01 (30_encoding.md R64). -/
  | funcLed
  /-- Function code 0x02 (30_encoding.md R64). -/
  | funcBuzzer
  /-- Function code 0x03 (30_encoding.md R64). -/
  | funcMotor
  /-- Function code 0x04 (30_encoding.md R64). -/
  | funcPwmServo
  /-- Function code 0x05 (30_encoding.md R64). -/
  | funcBusServo
  /-- Function code 0x06 (30_encoding.md R64). -/
  | funcKey
  /-- Function code 0x07 (30_encoding.md R64). -/
  | funcImu
  /-- Function code 0x08 (30_encoding.md R64). -/
  | funcGamepad
  /-- Function code 0x09 (30_encoding.md R64). -/
  | funcSbus
  /-- Function code 0x0A (30_encoding.md R64). -/
  | funcOled
  /-- Function code 0x0B (30_encoding.md R64). -/
  | funcRgb
deriving DecidableEq, Repr

/-- The typed operands that stand at the command port beside a command code: one lane per operand type of
30_encoding.md R70. A command reads its own lanes and no other (log 3). -/
structure Operands where
  /-- `func` of `ENCODE`, `b` of `RX_FEED`. -/
  byte : Byte
  /-- `data` of `CRC8`, `payload` of `ENCODE` and `RGB_DECODE`. -/
  bytes : List Byte
  /-- `pixels` of `RGB_ENCODE`. -/
  pixels : List Pixel
deriving DecidableEq, Repr

/-- No operands: every lane zero or empty. -/
def Operands.none : Operands := { byte := 0#8, bytes := [], pixels := [] }

/-- One command as it reaches the block: "a command code (one byte) plus typed operands" (30_encoding.md R70). -/
structure Request where
  code : Byte
  operands : Operands
deriving DecidableEq, Repr

/-- The six values of `rx_state` (10_state.md R23). The codes 6 and 7 are never held, so the type has none for them (log 8). -/
inductive RxState where
  /-- Scanning for 0xAA. -/
  | awaitStart1
  /-- 0xAA seen, expecting 0x55. -/
  | awaitStart2
  /-- The next byte is the function code. -/
  | awaitFunction
  /-- The next byte is the payload length. -/
  | awaitLength
  /-- The next byte is a payload byte. -/
  | awaitData
  /-- The next byte is the checksum. -/
  | awaitChecksum
deriving DecidableEq, Repr

/-- `classify`'s closed tagged set (30_encoding.md R64, R65): the eleven named function codes and `FUNC_UNKNOWN`. -/
inductive FunctionCode where
  | led | buzzer | motor | pwmServo | busServo | key | imu | gamepad | sbus | oled | rgb | unknown
deriving DecidableEq, Repr

end Sys2Proof
end

