-- ==== Sys2Proof/Machine/Operands.lean ====
section
/-! DEFINITION. Every operand form of a command (30_encoding.md R70): how each operand is read from the lanes at the command
port, and how a pixel travels as four bytes (R67, R68). -/

namespace Sys2Proof.Machine

/-- `data` of `CRC8`: a byte list of any finite length (R70). -/
def operandData (o : Operands) : List Byte := o.bytes

/-- `func` of `ENCODE`: one byte (R70). -/
def operandFunc (o : Operands) : Byte := o.byte

/-- `payload` of `ENCODE` and of `RGB_DECODE`: a byte list (R70). -/
def operandPayload (o : Operands) : List Byte := o.bytes

/-- `pixels` of `RGB_ENCODE`: a list of `(id, r, g, b)` (R70). -/
def operandPixels (o : Operands) : List Pixel := o.pixels

/-- `b` of `RX_FEED`: one byte (R70). -/
def operandByte (o : Operands) : Byte := o.byte

/-- `wire_id = id - 1`, one byte; exact for the admitted ids 1..256 (R68). -/
def wireId (id : Nat) : Byte := BitVec.ofNat 8 (id - 1)

/-- `id = wire_id + 1` (R68). -/
def appId (wire : Byte) : Nat := wire.toNat + 1

/-- The four bytes of one pixel entry, `id-1, r, g, b` in that order (R67; 20_memory.md R45(c)). -/
def pixelBytes (p : Pixel) : List Byte := [wireId p.id, p.r, p.g, p.b]

/-- The pixels in a list of four-byte entries, in order (R67). A tail shorter than an entry gives no pixel; the caller has
checked that there is none. -/
def readPixels : List Byte → List Pixel
  | w :: r :: g :: b :: rest => { id := appId w, r := r, g := g, b := b } :: readPixels rest
  | [] => []
  | [_] => []
  | [_, _] => []
  | [_, _, _] => []

end Sys2Proof.Machine
end

