-- ==== Sys2Proof/Decode.lean ====
section
/-! DEFINITION. The decoder, total on every command code and every operand, rejecting by name; after it the encoder, written
from the same tables (30_encoding.md R64, R70, R71). The opcode table has two formats. A command code is matched whole
(R71). A function code stands at wire frame offset 2, so it is met where `RX_FEED` brings a byte while the receiver is in
`AWAIT_FUNCTION`: `rx_state` "plays the role a program counter plays" (10_state.md R21; log 5). -/

namespace Sys2Proof

/-- Why a request is no instruction. -/
inductive DecodeError where
  /-- The command code is 0x00 or 0x08..0xFF (R71); the block answers `ILLEGAL_COMMAND` (60_exceptions.md R206). -/
  | illegalCommand (code : Byte)
deriving DecidableEq, Repr

/-- The rows of format `frame.function` (R64): the byte at wire frame offset 2 and its row. -/
def functionRows : List (Byte × Instr) :=
  [(0x01#8, .funcLed), (0x02#8, .funcBuzzer), (0x03#8, .funcMotor), (0x04#8, .funcPwmServo), (0x05#8, .funcBusServo),
   (0x06#8, .funcKey), (0x07#8, .funcImu), (0x08#8, .funcGamepad), (0x09#8, .funcSbus), (0x0A#8, .funcOled), (0x0B#8, .funcRgb)]

/-- The row of a function byte, where it has one. -/
def decodeFunctionByte (b : Byte) : Option Instr := functionRows.lookup b

/-- A command by its code alone, matched whole (R70, R71). Operands are read only under a defined code (60_exceptions.md
R206, R208). -/
def decodeCommand (r : Request) : Except DecodeError Instr :=
  match r.code.toNat with
  | 1 => .ok (.crc8 (Machine.operandData r.operands))
  | 2 => .ok (.encode (Machine.operandFunc r.operands) (Machine.operandPayload r.operands))
  | 3 => .ok (.rgbEncode (Machine.operandPixels r.operands))
  | 4 => .ok (.rgbDecode (Machine.operandPayload r.operands))
  | 5 => .ok (.rxFeed (Machine.operandByte r.operands))
  | 6 => .ok .rxReset
  | 7 => .ok .rxState
  | _ => .error (.illegalCommand r.code)

/-- The row of format `frame.function` under which an instruction stands: a byte fed in `AWAIT_FUNCTION` with a code of R64;
every other instruction stands as it is. -/
def atFunctionOffset (phase : RxState) (i : Instr) : Instr :=
  match phase, i with
  | .awaitFunction, .rxFeed b => (decodeFunctionByte b).getD (.rxFeed b)
  | _, i => i

/-- The decoder: the command's code (R71), then, for a byte fed at wire frame offset 2, its function row (R64). -/
def decode (phase : RxState) (r : Request) : Except DecodeError Instr :=
  match decodeCommand r with
  | .ok i => .ok (atFunctionOffset phase i)
  | .error e => .error e

/-- A function byte as it reaches the block: fed by `RX_FEED` (30_encoding.md R70; 43_frame_receiver.md R163). -/
def feedRequest (b : Byte) : Request := { code := 0x05#8, operands := { Operands.none with byte := b } }

/-- The encoder: the command code and the operands of R70; for a function row, the byte of R64 fed to the receiver. -/
def encode : Instr → Request
  | .crc8 data => { code := 0x01#8, operands := { Operands.none with bytes := data } }
  | .encode func payload => { code := 0x02#8, operands := { Operands.none with byte := func, bytes := payload } }
  | .rgbEncode pixels => { code := 0x03#8, operands := { Operands.none with pixels := pixels } }
  | .rgbDecode payload => { code := 0x04#8, operands := { Operands.none with bytes := payload } }
  | .rxFeed b => feedRequest b
  | .rxReset => { code := 0x06#8, operands := Operands.none }
  | .rxState => { code := 0x07#8, operands := Operands.none }
  | .funcLed => feedRequest 0x01#8
  | .funcBuzzer => feedRequest 0x02#8
  | .funcMotor => feedRequest 0x03#8
  | .funcPwmServo => feedRequest 0x04#8
  | .funcBusServo => feedRequest 0x05#8
  | .funcKey => feedRequest 0x06#8
  | .funcImu => feedRequest 0x07#8
  | .funcGamepad => feedRequest 0x08#8
  | .funcSbus => feedRequest 0x09#8
  | .funcOled => feedRequest 0x0A#8
  | .funcRgb => feedRequest 0x0B#8

/-- Where an instruction's encoding is met: a function row at wire frame offset 2, a command in any phase of the receiver
(here the one after reset). -/
def encodePhase : Instr → RxState
  | .crc8 _ => .awaitStart1
  | .encode _ _ => .awaitStart1
  | .rgbEncode _ => .awaitStart1
  | .rgbDecode _ => .awaitStart1
  | .rxFeed _ => .awaitStart1
  | .rxReset => .awaitStart1
  | .rxState => .awaitStart1
  | .funcLed => .awaitFunction
  | .funcBuzzer => .awaitFunction
  | .funcMotor => .awaitFunction
  | .funcPwmServo => .awaitFunction
  | .funcBusServo => .awaitFunction
  | .funcKey => .awaitFunction
  | .funcImu => .awaitFunction
  | .funcGamepad => .awaitFunction
  | .funcSbus => .awaitFunction
  | .funcOled => .awaitFunction
  | .funcRgb => .awaitFunction

/-- Where and as what a word of the opcode table (8 bits, every operand zero) is laid out: a word that some command row
has is a command code; a word that only a row of format `frame.function` has is a function byte at wire frame offset 2;
any other word is an (illegal) command code (log 6). -/
def tableWordLayout (w : Nat) : RxState × Request :=
  let code : Byte := BitVec.ofNat 8 w
  let command : Request := { code := code, operands := Operands.none }
  match decodeCommand command, decodeFunctionByte code with
  | .error _, some _ => (.awaitFunction, feedRequest code)
  | _, _ => (.awaitStart1, command)

/-- The instruction the decoder reads from a word of the opcode table. Every row is 8 bits wide, so `w` holds the code and
`_nbits` adds nothing (log 6). -/
def decodeTableWord (_nbits w : Nat) : Option Instr :=
  match decode (tableWordLayout w).1 (tableWordLayout w).2 with
  | .ok i => some i
  | .error _ => none

end Sys2Proof
end

