-- ==== Sys2Proof/Machine/State.lean ====
section
/-! DEFINITION. Everything the spec gives the block to hold: the receiver's registers (10_state.md R22), the constant
`CRC8_TABLE` (R26), and, the model's own, the commands waiting at the command port (log 1) and the responses given (log 2). -/

namespace Sys2Proof.Machine

/-- The registers of the frame receiver (10_state.md R22). -/
structure Receiver where
  /-- `rx_state` (R23). -/
  state : RxState
  /-- `rx_func`, 8 bits. -/
  func : Byte
  /-- `rx_len`, 8 bits, legal 0..251. -/
  len : Byte
  /-- `rx_remaining`, 8 bits, legal 0..251. -/
  remaining : Byte
  /-- `rx_buf`, up to 251 byte cells and their fill count. -/
  buf : List Byte
  /-- `rx_crc`, 8 bits. -/
  crc : Byte
deriving DecidableEq, Repr

/-- A completed frame as the receiver emits it (43_frame_receiver.md R167). -/
structure Frame where
  function : Byte
  payload : List Byte
deriving DecidableEq, Repr

/-- The status of a response (60_exceptions.md R201). -/
inductive Status where
  | ok | invalidArgument | noFrame | frameReady | checksumMismatch | lengthError | illegalCommand
deriving DecidableEq, Repr

/-- The data of a response: "a byte list, a pixel list, or a frame", or empty (60_exceptions.md R200). -/
inductive Data where
  | empty
  | bytes (bs : List Byte)
  | pixels (ps : List Pixel)
  | frame (f : Frame)
deriving DecidableEq, Repr

/-- A response `(status, data)` (60_exceptions.md R200). -/
structure Response where
  status : Status
  data : Data
deriving DecidableEq, Repr

/-- The block between two commands. -/
structure State where
  /-- `CRC8_TABLE`: read-only, never written (10_state.md R26; log 4). -/
  crcTable : CrcTable
  /-- The receiver's registers (10_state.md R22). -/
  rx : Receiver
  /-- Commands that have reached the command port, oldest first (the model's own field, log 1). -/
  pending : List Request
  /-- Responses given, oldest first; no command reads them (the model's own field, log 2; 10_state.md R28). -/
  responses : List Response
deriving DecidableEq, Repr

/-- Reasons to stop with a fault: none. "No condition in this core is fatal" (60_exceptions.md R205), so the type is empty,
no meaning raises one, and that is safe: nothing is proved by assuming that a step stops. -/
inductive Fault where
deriving DecidableEq, Repr

/-- Reasons to refuse an instruction. -/
inductive Refusal where
  /-- Raised by an arm of `exec` for an instruction that has no meaning yet; safe, since it only stops the run. No arm of this
  model raises it. -/
  | notModelled (mnemonic : String)
deriving DecidableEq, Repr

/-- Right after power-on: every receiver register at the value of 10_state.md R30, `CRC8_TABLE` at the spec's default (R30
"the parameter value"; 40_crc8.md R101; log 4), no command at the port (log 1), no response given (log 2). -/
def State.reset : State where
  crcTable := dallasMaximTable
  rx := { state := .awaitStart1, func := 0#8, len := 0#8, remaining := 0#8, buf := [], crc := 0#8 }
  pending := []
  responses := []

end Sys2Proof.Machine
end

