-- ==== Sys2Proof/Machine/Flags.lean ====
section
/-! DEFINITION. The block has no flags; "the per-command outcome that a processor would keep in flags is returned in the
response's `status` field" (10_state.md R28). This file holds every computation of a status: the codes (60_exceptions.md
R201), the numeric code of `rx_state` (10_state.md R23), and the checks that decide between `OK` and `INVALID_ARGUMENT`. -/

namespace Sys2Proof.Machine

/-- The status codes of 60_exceptions.md R201. -/
def statusCode : Status → Byte
  | .ok => 0x00#8
  | .invalidArgument => 0x01#8
  | .noFrame => 0x02#8
  | .frameReady => 0x03#8
  | .checksumMismatch => 0x04#8
  | .lengthError => 0x05#8
  | .illegalCommand => 0x0F#8

/-- The codes of `rx_state`, zero-extended from 3 bits to a byte (10_state.md R23; 43_frame_receiver.md R181). -/
def rxStateCode : RxState → Byte
  | .awaitStart1 => 0#8
  | .awaitStart2 => 1#8
  | .awaitFunction => 2#8
  | .awaitLength => 3#8
  | .awaitData => 4#8
  | .awaitChecksum => 5#8

/-- `ENCODE` refuses exactly a payload of more than 251 bytes (41_frame_encoder.md R120). -/
def encodeRefuses (payload : List Byte) : Bool := decide (Config.maxPayload < payload.length)

/-- An id outside 1..256 (42_rgb_payload.md R140). -/
def idRefused (p : Pixel) : Bool := decide (p.id < Config.rgbIdMin) || decide (Config.rgbIdMax < p.id)

/-- `RGB_ENCODE` refuses more than 62 pixels, then any id outside 1..256 (42_rgb_payload.md R140, R141). -/
def rgbEncodeRefuses (pixels : List Pixel) : Bool :=
  decide (Config.rgbMaxPixels < pixels.length) || pixels.any idRefused

/-- `RGB_DECODE`'s checks in the order of 42_rgb_payload.md R145: fewer than two bytes, a tag other than 0x01, a count above
62, a length other than `2 + 4*n`. -/
def rgbDecodeRefuses : List Byte → Bool
  | [] => true
  | [_] => true
  | tag :: count :: entries =>
    tag != Config.rgbSubcmd || decide (Config.rgbMaxPixels < count.toNat)
      || (entries.length + 2 != 2 + Config.rgbPixelBytes * count.toNat)

end Sys2Proof.Machine
end

