-- ==== Sys2Proof/Machine/Ops.lean ====
section
/-! DEFINITION. The named operations over the state: giving a response, `rx_clear()`, the two error answers, and the command
port. The block has no memory (20_memory.md R40) and takes no exception: an error is an answer that changes no register,
and after it the next command is executed by its own rule (60_exceptions.md R205, R207). -/

namespace Sys2Proof.Machine

/-- `respond STATUS(data)`: the one response of a command, after all earlier ones (00_scope.md R14; 60_exceptions.md R200). -/
def respond (status : Status) (data : Data) (s : State) : State :=
  { s with responses := s.responses ++ [{ status := status, data := data }] }

/-- `raise InvalidArgument()`: status `INVALID_ARGUMENT`, empty data, no state change (00_scope.md R14). -/
def raiseInvalidArgument (s : State) : State := respond .invalidArgument .empty s

/-- The answer to an undefined command code: `ILLEGAL_COMMAND`, empty data, no operand read, no state change
(60_exceptions.md R206). -/
def answerIllegalCommand (s : State) : State := respond .illegalCommand .empty s

/-- The registers after `rx_clear()` (10_state.md R30). -/
def clearedReceiver : Receiver :=
  { state := .awaitStart1, func := 0#8, len := 0#8, remaining := 0#8, buf := [], crc := 0#8 }

/-- `rx_clear()`, the block's one reset action (10_state.md R30; 70_reset_and_hazards.md R230). `CRC8_TABLE` is not affected. -/
def rxClear (s : State) : State := { s with rx := clearedReceiver }

/-- All register writes of one command, committed together (20_memory.md R47). -/
def setReceiver (rx : Receiver) (s : State) : State := { s with rx := rx }

/-- The command port after its oldest command has been taken (20_memory.md R47; log 1). -/
def setPending (rest : List Request) (s : State) : State := { s with pending := rest }

/-- A command placed at the port so that it is the next one taken (log 1). -/
def placeRequest (r : Request) (s : State) : State := setPending (r :: s.pending) s

/-- The receiver at wire frame offset 2, where the next byte is the function byte: the registers that R24 gives
`AWAIT_FUNCTION` (10_state.md R24; log 6). -/
def atFunctionByte (s : State) : State := setReceiver { clearedReceiver with state := .awaitFunction } s

/-- A word of the opcode table laid out where the next step fetches it (log 6). -/
def placeTableWord (w : Nat) (s : State) : State :=
  match tableWordLayout w with
  | (.awaitFunction, r) => placeRequest r (atFunctionByte s)
  | (_, r) => placeRequest r s

end Sys2Proof.Machine
end

