-- ==== Sys2Proof/Machine/Crc.lean ====
section
/-! DEFINITION. The CRC8 command (40_crc8.md). -/

namespace Sys2Proof.Machine

/-- `CRC8 data` (40_crc8.md R104): `OK` with one byte, for every span; no register written. -/
def execCrc8 (data : List Byte) (s : State) : Host.Outcome State Fault Refusal :=
  .next (respond .ok (.bytes [crc8 s.crcTable data]) s)

end Sys2Proof.Machine
end

