-- ==== Sys2Proof/Machine/Encoder.lean ====
section
/-! DEFINITION. The wire frame (30_encoding.md R60 to R63) and the frame encoder (41_frame_encoder.md). -/

namespace Sys2Proof.Machine

/-- The bytes of a frame: `0xAA, 0x55, function, length, payload..., crc8(function, length, payload)` (30_encoding.md R60, R62;
41_frame_encoder.md R120). The length is written as a byte, exact for the payloads `ENCODE` accepts. -/
def frameBytes (T : CrcTable) (func : Byte) (payload : List Byte) : List Byte :=
  let span := func :: BitVec.ofNat 8 payload.length :: payload
  [Config.start1, Config.start2] ++ span ++ [crc8 T span]

/-- `ENCODE func, payload` (41_frame_encoder.md R120). `func` is not checked (R123). -/
def execEncode (func : Byte) (payload : List Byte) (s : State) : Host.Outcome State Fault Refusal :=
  if encodeRefuses payload then .next (raiseInvalidArgument s)
  else .next (respond .ok (.bytes (frameBytes s.crcTable func payload)) s)

/-- The length of the frame that begins a byte stream, from its byte at offset 3 alone; a byte above 251 there begins no
legal frame (30_encoding.md R61). -/
def frameLength? (stream : List Byte) : Option Nat :=
  match stream[3]? with
  | some l => if l.toNat ≤ Config.maxPayload then some (l.toNat + Config.frameOverhead) else none
  | none => none

/-- The fields of a legal frame: function, payload and checksum byte (30_encoding.md R63); none for a byte list that is no
legal frame. -/
def frameFields? (fr : List Byte) : Option (Frame × Byte) :=
  match fr with
  | s1 :: s2 :: func :: l :: rest =>
    if s1 = Config.start1 ∧ s2 = Config.start2 ∧ l.toNat ≤ Config.maxPayload ∧ rest.length = l.toNat + 1 then
      match rest[l.toNat]? with
      | some checksum => some ({ function := func, payload := rest.take l.toNat }, checksum)
      | none => none
    else none
  | [] => none
  | [_] => none
  | [_, _] => none
  | [_, _, _] => none

/-- A legal frame is valid iff its checksum is the CRC8 of its bytes from offset 2 up to the checksum (30_encoding.md R62,
R63). -/
def frameValid (T : CrcTable) (fr : List Byte) : Bool :=
  match frameFields? fr with
  | some (_, checksum) => checksum == crc8 T ((fr.drop Config.crcFirstOffset).dropLast)
  | none => false

end Sys2Proof.Machine
end

