-- ==== Sys2Proof/Machine/FrameReceiver.lean ====
section
/-! DEFINITION. The frame receiver (43_frame_receiver.md): one arm per receiver state, the whole step, and the commands
`RX_FEED`, `RX_RESET` and `RX_STATE`. -/

namespace Sys2Proof.Machine

/-- "No frame yet": empty data (60_exceptions.md R201). -/
def noFrame : Response := { status := .noFrame, data := .empty }

/-- `AWAIT_START1` (R161): scan for 0xAA. -/
def feedStart1 (rx : Receiver) (b : Byte) : Receiver × Response :=
  if b = Config.start1 then ({ rx with state := .awaitStart2 }, noFrame) else (rx, noFrame)

/-- `AWAIT_START2` (R162): a second 0xAA keeps the scan where it is (90_conflicts.md C6). -/
def feedStart2 (rx : Receiver) (b : Byte) : Receiver × Response :=
  if b = Config.start2 then ({ rx with state := .awaitFunction }, noFrame)
  else if b = Config.start1 then ({ rx with state := .awaitStart2 }, noFrame)
  else ({ rx with state := .awaitStart1 }, noFrame)

/-- `AWAIT_FUNCTION` (R163): any byte is accepted; the running CRC starts here. -/
def feedFunction (T : CrcTable) (rx : Receiver) (b : Byte) : Receiver × Response :=
  ({ rx with func := b, crc := crc8Update T Config.crcInit b, state := .awaitLength }, noFrame)

/-- `AWAIT_LENGTH` (R164, R165): 0..251 starts the payload, or the checksum where it is 0; 252..255 discards the frame. -/
def feedLength (T : CrcTable) (rx : Receiver) (b : Byte) : Receiver × Response :=
  if Config.maxPayload < b.toNat then (clearedReceiver, { status := .lengthError, data := .empty })
  else
    ({ rx with
        len := b, crc := crc8Update T rx.crc b, buf := [], remaining := b,
        state := if b = 0#8 then .awaitChecksum else .awaitData },
      noFrame)

/-- `AWAIT_DATA` (R166): append, fold, count down; the test is on the new count. The 8-bit count wraps only where
`rx_remaining` is 0 on entry, which R24 excludes (log 7). -/
def feedData (T : CrcTable) (rx : Receiver) (b : Byte) : Receiver × Response :=
  ({ rx with
      buf := rx.buf ++ [b], crc := crc8Update T rx.crc b, remaining := rx.remaining - 1#8,
      state := if rx.remaining - 1#8 = 0#8 then .awaitChecksum else .awaitData },
    noFrame)

/-- `AWAIT_CHECKSUM` (R167, R168): compare with the running CRC, answer, and clear either way. -/
def feedChecksum (rx : Receiver) (b : Byte) : Receiver × Response :=
  if b = rx.crc then
    (clearedReceiver, { status := .frameReady, data := .frame { function := rx.func, payload := rx.buf } })
  else (clearedReceiver, { status := .checksumMismatch, data := .empty })

/-- The receiver's step, "a total function over `(state, byte) -> (new_state, optional_output)`" (R169). -/
def feed (T : CrcTable) (rx : Receiver) (b : Byte) : Receiver × Response :=
  match rx.state with
  | .awaitStart1 => feedStart1 rx b
  | .awaitStart2 => feedStart2 rx b
  | .awaitFunction => feedFunction T rx b
  | .awaitLength => feedLength T rx b
  | .awaitData => feedData T rx b
  | .awaitChecksum => feedChecksum rx b

/-- One byte fed to the block: the receiver's step, all its writes together, and its response (R169; 20_memory.md R47). -/
def feedByte (b : Byte) (s : State) : State :=
  let out := feed s.crcTable s.rx b
  respond out.2.status out.2.data (setReceiver out.1 s)

/-- `RX_FEED b` (R160, R169). -/
def execRxFeed (b : Byte) (s : State) : Host.Outcome State Fault Refusal := .next (feedByte b s)

/-- `RX_RESET` (R180): an in-progress frame is abandoned without a report. -/
def execRxReset (s : State) : Host.Outcome State Fault Refusal := .next (respond .ok .empty (rxClear s))

/-- `RX_STATE` (R181): the code of `rx_state`; no register written. -/
def execRxState (s : State) : Host.Outcome State Fault Refusal :=
  .next (respond .ok (.bytes [rxStateCode s.rx.state]) s)

end Sys2Proof.Machine
end

