-- ==== Sys2Proof/Machine/FunctionCodes.lean ====
section
/-! DEFINITION. Function codes (30_encoding.md R64 to R66): their classification, and the meaning of each row of format
`frame.function`: the block executes on such a byte where the receiver takes it, so a row's meaning is the receiver's step on
the row's byte (43_frame_receiver.md R163, R169; log 5). -/

namespace Sys2Proof.Machine

/-- `classify(code)` (30_encoding.md R65): 0x01..0x0B by name, every other byte `FUNC_UNKNOWN`. No command's behaviour depends
on it. -/
def classify (code : Byte) : FunctionCode :=
  match code.toNat with
  | 1 => .led
  | 2 => .buzzer
  | 3 => .motor
  | 4 => .pwmServo
  | 5 => .busServo
  | 6 => .key
  | 7 => .imu
  | 8 => .gamepad
  | 9 => .sbus
  | 10 => .oled
  | 11 => .rgb
  | _ => .unknown

/-- `FUNC_LED` = 0x01 (30_encoding.md R64), taken by the receiver. -/
def execFuncLed (s : State) : Host.Outcome State Fault Refusal := .next (feedByte 0x01#8 s)

/-- `FUNC_BUZZER` = 0x02 (30_encoding.md R64), taken by the receiver. -/
def execFuncBuzzer (s : State) : Host.Outcome State Fault Refusal := .next (feedByte 0x02#8 s)

/-- `FUNC_MOTOR` = 0x03 (30_encoding.md R64), taken by the receiver. -/
def execFuncMotor (s : State) : Host.Outcome State Fault Refusal := .next (feedByte 0x03#8 s)

/-- `FUNC_PWM_SERVO` = 0x04 (30_encoding.md R64), taken by the receiver. -/
def execFuncPwmServo (s : State) : Host.Outcome State Fault Refusal := .next (feedByte 0x04#8 s)

/-- `FUNC_BUS_SERVO` = 0x05 (30_encoding.md R64), taken by the receiver. -/
def execFuncBusServo (s : State) : Host.Outcome State Fault Refusal := .next (feedByte 0x05#8 s)

/-- `FUNC_KEY` = 0x06 (30_encoding.md R64), taken by the receiver. -/
def execFuncKey (s : State) : Host.Outcome State Fault Refusal := .next (feedByte 0x06#8 s)

/-- `FUNC_IMU` = 0x07 (30_encoding.md R64), taken by the receiver. -/
def execFuncImu (s : State) : Host.Outcome State Fault Refusal := .next (feedByte 0x07#8 s)

/-- `FUNC_GAMEPAD` = 0x08 (30_encoding.md R64), taken by the receiver. -/
def execFuncGamepad (s : State) : Host.Outcome State Fault Refusal := .next (feedByte 0x08#8 s)

/-- `FUNC_SBUS` = 0x09 (30_encoding.md R64), taken by the receiver. -/
def execFuncSbus (s : State) : Host.Outcome State Fault Refusal := .next (feedByte 0x09#8 s)

/-- `FUNC_OLED` = 0x0A (30_encoding.md R64), taken by the receiver. -/
def execFuncOled (s : State) : Host.Outcome State Fault Refusal := .next (feedByte 0x0A#8 s)

/-- `FUNC_RGB` = 0x0B (30_encoding.md R64), taken by the receiver. -/
def execFuncRgb (s : State) : Host.Outcome State Fault Refusal := .next (feedByte 0x0B#8 s)

end Sys2Proof.Machine
end

