-- ==== Sys2Proof/Machine/Rgb.lean ====
section
/-! DEFINITION. The RGB payload formatter (42_rgb_payload.md). -/

namespace Sys2Proof.Machine

/-- The payload of an accepted pixel list: the tag, the count, the entries in input order (30_encoding.md R67;
42_rgb_payload.md R140). -/
def rgbPayload (pixels : List Pixel) : List Byte :=
  [Config.rgbSubcmd, BitVec.ofNat 8 pixels.length] ++ pixels.flatMap pixelBytes

/-- `RGB_ENCODE pixels` (42_rgb_payload.md R140). -/
def execRgbEncode (pixels : List Pixel) (s : State) : Host.Outcome State Fault Refusal :=
  if rgbEncodeRefuses pixels then .next (raiseInvalidArgument s)
  else .next (respond .ok (.bytes (rgbPayload pixels)) s)

/-- `RGB_DECODE payload` (42_rgb_payload.md R145). -/
def execRgbDecode (payload : List Byte) (s : State) : Host.Outcome State Fault Refusal :=
  if rgbDecodeRefuses payload then .next (raiseInvalidArgument s)
  else .next (respond .ok (.pixels (readPixels (payload.drop 2))) s)

end Sys2Proof.Machine
end

