-- ==== Sys2Proof/Machine/Dispatch.lean ====
section
/-! DEFINITION. One arm per row of spec/opcode_table.json, each one direct call of that row's meaning. -/

namespace Sys2Proof.Machine

/-- The meaning of an instruction at a state. -/
def exec (i : Instr) (s : State) : Host.Outcome State Fault Refusal :=
  match i with
  | .crc8 data => Sys2Proof.Machine.execCrc8 data s
  | .encode func payload => Sys2Proof.Machine.execEncode func payload s
  | .rgbEncode pixels => Sys2Proof.Machine.execRgbEncode pixels s
  | .rgbDecode payload => Sys2Proof.Machine.execRgbDecode payload s
  | .rxFeed b => Sys2Proof.Machine.execRxFeed b s
  | .rxReset => Sys2Proof.Machine.execRxReset s
  | .rxState => Sys2Proof.Machine.execRxState s
  | .funcLed => Sys2Proof.Machine.execFuncLed s
  | .funcBuzzer => Sys2Proof.Machine.execFuncBuzzer s
  | .funcMotor => Sys2Proof.Machine.execFuncMotor s
  | .funcPwmServo => Sys2Proof.Machine.execFuncPwmServo s
  | .funcBusServo => Sys2Proof.Machine.execFuncBusServo s
  | .funcKey => Sys2Proof.Machine.execFuncKey s
  | .funcImu => Sys2Proof.Machine.execFuncImu s
  | .funcGamepad => Sys2Proof.Machine.execFuncGamepad s
  | .funcSbus => Sys2Proof.Machine.execFuncSbus s
  | .funcOled => Sys2Proof.Machine.execFuncOled s
  | .funcRgb => Sys2Proof.Machine.execFuncRgb s

end Sys2Proof.Machine
end

