-- ==== Sys2Proof/Machine/Step.lean ====
section
/-! DEFINITION. One step: the oldest command at the port is taken, decoded and executed, whole (20_memory.md R47; log 1). -/

namespace Sys2Proof.Machine

/-- With no command at the port the block waits, and nothing changes (70_reset_and_hazards.md R231; log 1). A command code that
is not defined answers `ILLEGAL_COMMAND` (60_exceptions.md R206). -/
def step (s : State) : Host.Outcome State Fault Refusal :=
  match s.pending with
  | [] => .next s
  | r :: rest =>
    match decode s.rx.state r with
    | .ok i => exec i (setPending rest s)
    | .error (.illegalCommand _) => .next (answerIllegalCommand (setPending rest s))

/-- A word of the opcode table placed so that the very next step runs it (log 6). Every row is 8 bits wide. -/
def State.withFetchWord (s : State) (_nbits w : Nat) : State := placeTableWord w s

end Sys2Proof.Machine
end

