-- ==== Sys2Proof/Machine/Pseudo.lean ====
section
/-! DEFINITION. The pseudo-commands of 30_encoding.md R74: what a host issues, command by command, each command executed by
`exec`. They are no instructions of the block. -/

namespace Sys2Proof.Machine

/-- Commands executed in order, each on the state the one before it left (20_memory.md R47, R50). -/
def runCommands : List Instr → State → Host.Outcome State Fault Refusal
  | [], s => .next s
  | i :: rest, s =>
    match exec i s with
    | .next t => runCommands rest t
    | .fault r => .fault r
    | .refused r => .refused r

/-- `RX_FEEDS [b0, ..., bk]`: `RX_FEED b0` to `RX_FEED bk` in order (R74). -/
def rxFeeds (bytes : List Byte) (s : State) : Host.Outcome State Fault Refusal :=
  runCommands (bytes.map Instr.rxFeed) s

/-- A command `first`, and then, where it answered `OK` with a byte list, what `next` makes of those bytes. -/
def thenOnOk (first : Instr) (next : List Byte → State → Host.Outcome State Fault Refusal) (s : State) :
    Host.Outcome State Fault Refusal :=
  match exec first s with
  | .next t =>
    match t.responses.getLast? with
    | some { status := .ok, data := .bytes bs } => next bs t
    | _ => .next t
  | .fault r => .fault r
  | .refused r => .refused r

/-- `RGB_FRAME pixels`: `RGB_ENCODE`, and on `OK p`, `ENCODE 0x0B, p` (R74). -/
def rgbFrame (pixels : List Pixel) (s : State) : Host.Outcome State Fault Refusal :=
  thenOnOk (.rgbEncode pixels) (fun p => exec (.encode 0x0B#8 p)) s

/-- `SEND_AND_RECEIVE f, p`: `ENCODE f, p`, and on `OK fr`, `RX_FEEDS fr` (R74). -/
def sendAndReceive (func : Byte) (payload : List Byte) (s : State) : Host.Outcome State Fault Refusal :=
  thenOnOk (.encode func payload) rxFeeds s

end Sys2Proof.Machine
end

