-- ==== Sys2Proof/Safety.lean ====
section
/-! DEFINITION. The terms claims are stated in: the invariant of the receiver's registers (10_state.md R24), the end and the
observation of a run (70_reset_and_hazards.md R251), and the form of a response (60_exceptions.md R200). -/

namespace Sys2Proof.Machine

/-- R24, row by row: what the registers hold in each state of the receiver. -/
def Receiver.Inv (T : CrcTable) (rx : Receiver) : Prop :=
  match rx.state with
  | .awaitStart1 => rx.func = 0#8 ∧ rx.len = 0#8 ∧ rx.remaining = 0#8 ∧ rx.buf = [] ∧ rx.crc = 0#8
  | .awaitStart2 => rx.func = 0#8 ∧ rx.len = 0#8 ∧ rx.remaining = 0#8 ∧ rx.buf = [] ∧ rx.crc = 0#8
  | .awaitFunction => rx.func = 0#8 ∧ rx.len = 0#8 ∧ rx.remaining = 0#8 ∧ rx.buf = [] ∧ rx.crc = 0#8
  | .awaitLength => rx.len = 0#8 ∧ rx.remaining = 0#8 ∧ rx.buf = [] ∧ rx.crc = crc8 T [rx.func]
  | .awaitData =>
    1 ≤ rx.len.toNat ∧ rx.len.toNat ≤ 251 ∧ 1 ≤ rx.remaining.toNat ∧ rx.remaining.toNat ≤ rx.len.toNat ∧
      rx.buf.length = rx.len.toNat - rx.remaining.toNat ∧ rx.crc = crc8 T ([rx.func, rx.len] ++ rx.buf)
  | .awaitChecksum =>
    rx.len.toNat ≤ 251 ∧ rx.remaining = 0#8 ∧ rx.buf.length = rx.len.toNat ∧
      rx.crc = crc8 T ([rx.func, rx.len] ++ rx.buf)

/-- The invariant of the state: R24 for the receiver, under the state's own table. -/
abbrev State.Inv (s : State) : Prop := s.rx.Inv s.crcTable

/-- "`data` is ... empty for every status other than `OK` and `FRAME_READY`", and a frame exactly under `FRAME_READY`
(60_exceptions.md R200, R201). -/
def Response.wellFormed (r : Response) : Bool :=
  match r.status, r.data with
  | .ok, .frame _ => false
  | .ok, _ => true
  | .frameReady, .frame _ => true
  | .frameReady, _ => false
  | _, .empty => true
  | _, _ => false

/-- A run ends when the last command has answered (70_reset_and_hazards.md R251). -/
def State.runEnded (s : State) : Bool := s.pending.isEmpty

/-- The observation of a run: the responses in order and the receiver's registers (70_reset_and_hazards.md R251). -/
def State.observation (s : State) : List Response × Receiver := (s.responses, s.rx)

/-- "A run that ends with `rx_state` other than `AWAIT_START1` has a frame in progress" (70_reset_and_hazards.md R251). -/
def State.frameInProgress (s : State) : Bool := s.rx.state != .awaitStart1

/-- The byte an instruction feeds to the receiver, where it feeds one: `RX_FEED`'s operand, a function row's byte (log 5). -/
def fedByte : Instr → Option Byte
  | .crc8 _ => none
  | .encode _ _ => none
  | .rgbEncode _ => none
  | .rgbDecode _ => none
  | .rxFeed b => some b
  | .rxReset => none
  | .rxState => none
  | .funcLed => some 0x01#8
  | .funcBuzzer => some 0x02#8
  | .funcMotor => some 0x03#8
  | .funcPwmServo => some 0x04#8
  | .funcBusServo => some 0x05#8
  | .funcKey => some 0x06#8
  | .funcImu => some 0x07#8
  | .funcGamepad => some 0x08#8
  | .funcSbus => some 0x09#8
  | .funcOled => some 0x0A#8
  | .funcRgb => some 0x0B#8

/-- The bytes that a list of commands feeds to the receiver, in order: the operands of its `RX_FEED`s (30_encoding.md R70). -/
def bytesFed (commands : List Request) : List Byte :=
  commands.filterMap (fun r => if r.code = 0x05#8 then some r.operands.byte else none)

/-- `n` steps of the machine. -/
def run (n : Nat) (s : State) : Host.Outcome State Fault Refusal := Host.Core.run Sys2Proof.core n s

/-- The state a step answers, where it answers one: a step that stops has none. -/
def nextOf : Host.Outcome State Fault Refusal → Option State
  | .next t => some t
  | .fault _ => none
  | .refused _ => none

end Sys2Proof.Machine
end

