-- ==== Sys2Proof/WellFormed.lean ====
section
/-! DEFINITION. Which instructions carry operands the opcode table admits for the status `OK` (spec/opcode_table.json, column
of the operands; 30_encoding.md R69), and which requests are in canonical form. An instruction that is not well-formed is
no illegal instruction: it runs and answers `INVALID_ARGUMENT` (60_exceptions.md R202). -/

namespace Sys2Proof

/-- The table's `id: natural 1..256` (opcode_table.json row RGB_ENCODE; 30_encoding.md R68). -/
def Pixel.wellFormed (p : Pixel) : Bool :=
  decide (Config.rgbIdMin ≤ p.id) && decide (p.id ≤ Config.rgbIdMax)

/-- A legal RGB payload: tag 0x01, a count of at most 62, and exactly `2 + 4*n` bytes (30_encoding.md R67, R69). -/
def rgbPayloadWellFormed : List Byte → Bool
  | [] => false
  | [_] => false
  | tag :: count :: entries =>
    tag == Config.rgbSubcmd && decide (count.toNat ≤ Config.rgbMaxPixels)
      && entries.length == Config.rgbPixelBytes * count.toNat

/-- The operands are those the opcode table admits for `OK`: a payload of 0..251 bytes for `ENCODE`, 0..62 pixels with ids
1..256 for `RGB_ENCODE`, a legal payload for `RGB_DECODE`; every operand of the other rows. -/
def Instr.wellFormed : Instr → Bool
  | .crc8 _ => true
  | .encode _ payload => decide (payload.length ≤ Config.maxPayload)
  | .rgbEncode pixels => decide (pixels.length ≤ Config.rgbMaxPixels) && pixels.all Pixel.wellFormed
  | .rgbDecode payload => rgbPayloadWellFormed payload
  | .rxFeed _ => true
  | .rxReset => true
  | .rxState => true
  | .funcLed => true
  | .funcBuzzer => true
  | .funcMotor => true
  | .funcPwmServo => true
  | .funcBusServo => true
  | .funcKey => true
  | .funcImu => true
  | .funcGamepad => true
  | .funcSbus => true
  | .funcOled => true
  | .funcRgb => true

/-- A request whose code is one of 0x01..0x07 (30_encoding.md R71) and whose unused operand lanes are empty (log 3). -/
def Request.canonical (r : Request) : Bool :=
  match r.code.toNat with
  | 1 => r.operands == { Operands.none with bytes := r.operands.bytes }
  | 2 => r.operands == { Operands.none with byte := r.operands.byte, bytes := r.operands.bytes }
  | 3 => r.operands == { Operands.none with pixels := r.operands.pixels }
  | 4 => r.operands == { Operands.none with bytes := r.operands.bytes }
  | 5 => r.operands == { Operands.none with byte := r.operands.byte }
  | 6 => r.operands == Operands.none
  | 7 => r.operands == Operands.none
  | _ => false

end Sys2Proof
end

