-- ==== Sys2Proof/Certificates/Slice0/Obligations.lean ====
section
/-! DEFINITION. The statements for the provers. A statement about one command is an equation that gives the whole next state, so
it says at once that the command completes, what it answers and what it leaves unchanged. -/

open Sys2Proof Sys2Proof.Machine

/-! ## Decoding and the step -/

/-- 30_encoding.md R70 (the codes are the spec's decision D2): each command code decodes to its row, each operand read from its
own lane (log 3); `RX_FEED` outside `AWAIT_FUNCTION`, where a fed byte may be read under its function row (log 5). -/
def Obligations.CommandCodesDecodeToTheirRows : Prop :=
  ∀ (phase : RxState) (o : Operands),
    decode phase { code := 0x01#8, operands := o } = .ok (.crc8 o.bytes) ∧
    decode phase { code := 0x02#8, operands := o } = .ok (.encode o.byte o.bytes) ∧
    decode phase { code := 0x03#8, operands := o } = .ok (.rgbEncode o.pixels) ∧
    decode phase { code := 0x04#8, operands := o } = .ok (.rgbDecode o.bytes) ∧
    (phase ≠ .awaitFunction → decode phase { code := 0x05#8, operands := o } = .ok (.rxFeed o.byte)) ∧
    decode phase { code := 0x06#8, operands := o } = .ok .rxReset ∧
    decode phase { code := 0x07#8, operands := o } = .ok .rxState

/-- 30_encoding.md R64 read at wire frame offset 2 (log 5): in `AWAIT_FUNCTION` a fed byte with a function code decodes to that
code's row, any other fed byte to `RX_FEED`. -/
def Obligations.FunctionBytesDecodeToTheirRows : Prop :=
  (∀ p ∈ ([(0x01#8, .funcLed), (0x02#8, .funcBuzzer), (0x03#8, .funcMotor), (0x04#8, .funcPwmServo), (0x05#8, .funcBusServo),
      (0x06#8, .funcKey), (0x07#8, .funcImu), (0x08#8, .funcGamepad), (0x09#8, .funcSbus), (0x0A#8, .funcOled),
      (0x0B#8, .funcRgb)] : List (Byte × Instr)),
    ∀ o : Operands, o.byte = p.1 → decode .awaitFunction { code := 0x05#8, operands := o } = .ok p.2) ∧
  (∀ o : Operands, o.byte = 0x00#8 ∨ 0x0C ≤ o.byte.toNat →
    decode .awaitFunction { code := 0x05#8, operands := o } = .ok (.rxFeed o.byte))

/-- Every instruction's encoding, met where it belongs, decodes to it (30_encoding.md R64, R70; log 3, log 5). -/
def Obligations.DecodeOfEncode : Prop :=
  ∀ i : Instr, decode (encodePhase i) (encode i) = .ok i

/-- A canonical request is the encoding of what it decodes to, in every phase of the receiver: no code and no operand is
dropped (30_encoding.md R70, R71; log 3, log 5). -/
def Obligations.EncodeOfDecode : Prop :=
  ∀ (phase : RxState) (r : Request) (i : Instr), r.canonical = true → decode phase r = .ok i → encode i = r

/-- The step runs the decoded instruction on the state whose port the command has left (20_memory.md R47, decision D20; log 1). -/
def Obligations.StepRunsTheDecodedInstruction : Prop :=
  ∀ (s : State) (r : Request) (rest : List Request) (i : Instr),
    s.pending = r :: rest → decode s.rx.state r = .ok i → step s = exec i { s with pending := rest }

/-- With no command at the port a step changes nothing: "after reset it waits for the first command"
(70_reset_and_hazards.md R231; that waiting is a step is log 1). -/
def Obligations.BlockWaitsWithoutCommand : Prop :=
  ∀ s : State, s.pending = [] → step s = .next s

/-- 60_exceptions.md R206 and 30_encoding.md R71 (decision D2): an undefined code answers `ILLEGAL_COMMAND` with empty data,
whatever operands stand beside it, and changes no register. -/
def Obligations.UndefinedCodeAnswersIllegalCommand : Prop :=
  ∀ (s : State) (r : Request) (rest : List Request),
    s.pending = r :: rest → r.code = 0x00#8 ∨ 0x08 ≤ r.code.toNat →
      step s = .next { s with
        pending := rest, responses := s.responses ++ [{ status := .illegalCommand, data := .empty }] }

/-- The words of the opcode table, written out (30_encoding.md R64, R70): the seven command codes with no operands, the four
function codes that no command code equals, and two codes that are no row (which of two rows a shared word is, is log 6). -/
def Obligations.TableWordsDecodeToTheirRows : Prop :=
  decodeTableWord 8 0x01 = some (.crc8 []) ∧ decodeTableWord 8 0x02 = some (.encode 0x00#8 []) ∧
  decodeTableWord 8 0x03 = some (.rgbEncode []) ∧ decodeTableWord 8 0x04 = some (.rgbDecode []) ∧
  decodeTableWord 8 0x05 = some (.rxFeed 0x00#8) ∧ decodeTableWord 8 0x06 = some .rxReset ∧
  decodeTableWord 8 0x07 = some .rxState ∧ decodeTableWord 8 0x08 = some .funcGamepad ∧
  decodeTableWord 8 0x09 = some .funcSbus ∧ decodeTableWord 8 0x0A = some .funcOled ∧
  decodeTableWord 8 0x0B = some .funcRgb ∧ decodeTableWord 8 0x00 = none ∧ decodeTableWord 8 0x0C = none

/-- A word of the opcode table that decodes is run by the very next step (the layout of table words is log 6): a command code
0x01..0x07 on the state as it was, a function code 0x08..0x0B on that state with its receiver at wire frame offset 2, that is
in `AWAIT_FUNCTION` with every other register 0 or empty. A word's code is its low eight bits. -/
def Obligations.TableWordIsRunByTheNextStep : Prop :=
  ∀ (s : State) (nbits w : Nat) (i : Instr), decodeTableWord nbits w = some i →
    1 ≤ w % 256 ∧ w % 256 ≤ 0x0B ∧
    (w % 256 ≤ 0x07 → step (s.withFetchWord nbits w) = exec i s) ∧
    (0x08 ≤ w % 256 → step (s.withFetchWord nbits w) = exec i { s with
      rx := { state := .awaitFunction, func := 0#8, len := 0#8, remaining := 0#8, buf := [], crc := 0#8 } })

/-! ## The CRC8 generator -/

/-- 40_crc8.md R100, R102: `CRC8 data` answers `OK` with the fold of `T[acc XOR b]` over the span from accumulator 0, for every
span and every table, and writes no register. -/
def Obligations.Crc8AnswersTheSpanChecksum : Prop :=
  ∀ (data : List Byte) (s : State),
    exec (.crc8 data) s = .next { s with
      responses := s.responses ++ [{
        status := .ok,
        data := .bytes [data.foldl (fun acc b => s.crcTable[(acc ^^^ b).toNat]'((acc ^^^ b).isLt)) 0x00#8] }] }

/-- 40_crc8.md R103 (marked derived): the checksum goes on byte by byte. -/
def Obligations.ChecksumExtendsByteByByte : Prop :=
  ∀ (T : CrcTable) (x y : List Byte) (b : Byte),
    crc8 T (x ++ [b]) = crc8Update T (crc8 T x) b ∧ crc8 T (x ++ y) = y.foldl (crc8Update T) (crc8 T x)

/-- 40_crc8.md R106 (marked derived), for every table. -/
def Obligations.SpanWithItsOwnChecksum : Prop :=
  ∀ T : CrcTable,
    crc8 T [] = 0#8 ∧ (∀ b : Byte, crc8 T [b] = tableEntry T b) ∧
      ∀ x : List Byte, crc8 T (x ++ [crc8 T x]) = tableEntry T 0#8

/-- 40_crc8.md R101, R105 (general knowledge, log 4): the printed table is the one R101's shift-and-XOR loop generates, so that
loop is a conforming realisation of the update step for all 65,536 pairs. -/
def Obligations.DallasTableIsTheShiftLoop : Prop :=
  ∀ acc b : Byte, crc8Update dallasMaximTable acc b = crc8UpdateByShifts acc b

/-- 40_crc8.md R107(a), (b), (c) (marked derived, log 4): entry 0 is 0, the table is linear, and it is a permutation. -/
def Obligations.DallasTableIsALinearPermutation : Prop :=
  tableEntry dallasMaximTable 0#8 = 0#8 ∧
  (∀ a b : Byte,
    tableEntry dallasMaximTable (a ^^^ b) = tableEntry dallasMaximTable a ^^^ tableEntry dallasMaximTable b) ∧
  Function.Bijective (tableEntry dallasMaximTable)

/-- 40_crc8.md R107(d) (marked derived, log 4). -/
def Obligations.DallasChecksumIsLinear : Prop :=
  ∀ x y : List Byte, x.length = y.length →
    crc8 dallasMaximTable (List.zipWith (· ^^^ ·) x y) = crc8 dallasMaximTable x ^^^ crc8 dallasMaximTable y

/-- 40_crc8.md R107(e) (marked derived, log 4): in a span of 1 to 253 bytes the pattern of any single bit has a nonzero
checksum, and flipping any single bit changes the checksum. -/
def Obligations.DallasChecksumSeesEverySingleBit : Prop :=
  ∀ (data : List Byte) (i : Nat) (k : Fin 8), i < data.length → data.length ≤ 253 →
    crc8 dallasMaximTable ((List.replicate data.length 0#8).set i (1#8 <<< k.val)) ≠ 0#8 ∧
    crc8 dallasMaximTable (data.set i (data.getD i 0#8 ^^^ 1#8 <<< k.val)) ≠ crc8 dallasMaximTable data

/-! ## The frame encoder -/

/-- 41_frame_encoder.md R120: `ENCODE` refuses exactly a payload of more than 251 bytes, and else answers the frame, `L + 5`
bytes long; no register is written either way. (R120's worked example, which needs the default table, is
`EncodeWorkedExample`.) -/
def Obligations.EncodeBuildsTheFrame : Prop :=
  ∀ (func : Byte) (payload : List Byte) (s : State),
    (251 < payload.length →
      exec (.encode func payload) s = .next { s with
        responses := s.responses ++ [{ status := .invalidArgument, data := .empty }] }) ∧
    (payload.length ≤ 251 → ∃ frame : List Byte,
      frame = [0xAA#8, 0x55#8, func, BitVec.ofNat 8 payload.length] ++ payload ++
        [crc8 s.crcTable ([func, BitVec.ofNat 8 payload.length] ++ payload)] ∧
      frame.length = payload.length + 5 ∧
      exec (.encode func payload) s = .next { s with
        responses := s.responses ++ [{ status := .ok, data := .bytes frame }] })

/-- 30_encoding.md R60, R62: the answer of `ENCODE` offset by offset; the checksum is the CRC8 of exactly the `2 + L` bytes at
offsets 2 to `3 + L`, which are function, length and payload. -/
def Obligations.EncodedFrameLayout : Prop :=
  ∀ (func : Byte) (payload : List Byte) (s : State), payload.length ≤ 251 →
    ∃ frame : List Byte,
      exec (.encode func payload) s = .next { s with
        responses := s.responses ++ [{ status := .ok, data := .bytes frame }] } ∧
      frame.length = payload.length + 5 ∧
      frame[0]? = some 0xAA#8 ∧ frame[1]? = some 0x55#8 ∧ frame[2]? = some func ∧
      (∃ l : Byte, frame[3]? = some l ∧ l.toNat = payload.length) ∧
      (∀ i, i < payload.length → frame[4 + i]? = payload[i]?) ∧
      frame[4 + payload.length]? = some (crc8 s.crcTable ((frame.drop 2).take (2 + payload.length))) ∧
      (frame.drop 2).take (2 + payload.length) = [func, BitVec.ofNat 8 payload.length] ++ payload

/-- 30_encoding.md R63: the fields of a legal frame by their offsets, and when it is valid. -/
def Obligations.LegalFrameFields : Prop :=
  ∀ (T : CrcTable) (fr : List Byte) (L : Nat), 5 ≤ fr.length → fr[0]? = some 0xAA#8 → fr[1]? = some 0x55#8 →
    L = (fr.getD 3 0#8).toNat → L ≤ 251 → fr.length = L + 5 →
      frameFields? fr = some ({ function := fr.getD 2 0#8, payload := (fr.drop 4).take L }, fr.getD (4 + L) 0#8) ∧
      (frameValid T fr = true ↔ fr.getD (4 + L) 0#8 = crc8 T ((fr.drop 2).take (2 + L)))

/-- 30_encoding.md R60 to R63 with 41_frame_encoder.md R121 (marked derived): the valid byte lists are exactly the frames the
encoder builds, and R61's length from the byte at offset 3 is a built frame's length, whatever follows it in the stream. -/
def Obligations.ValidFramesAreTheEncodersFrames : Prop :=
  ∀ (T : CrcTable),
    (∀ fr : List Byte, frameValid T fr = true ↔
      ∃ (func : Byte) (payload : List Byte), payload.length ≤ 251 ∧ fr = frameBytes T func payload) ∧
    (∀ (func : Byte) (payload rest : List Byte), payload.length ≤ 251 →
      frameLength? (frameBytes T func payload ++ rest) = some (frameBytes T func payload).length)

/-- 41_frame_encoder.md R126 (marked derived, log 4): under the default table, function through checksum folds to 0. -/
def Obligations.DallasFrameFoldsToZero : Prop :=
  ∀ (func : Byte) (payload : List Byte), payload.length ≤ 251 →
    crc8 dallasMaximTable ((frameBytes dallasMaximTable func payload).drop 2) = 0#8

/-! ## The RGB payload formatter -/

/-- 42_rgb_payload.md R140 (the id range is the spec's decision D13): refused exactly for more than 62 pixels or an id outside
1..256; else the tag, the count and four bytes per pixel in input order, `2 + 4*n` bytes. No register is written. -/
def Obligations.RgbEncodeBuildsThePayload : Prop :=
  ∀ (pixels : List Pixel) (s : State),
    (62 < pixels.length ∨ (∃ p ∈ pixels, p.id < 1 ∨ 256 < p.id) →
      exec (.rgbEncode pixels) s = .next { s with
        responses := s.responses ++ [{ status := .invalidArgument, data := .empty }] }) ∧
    (pixels.length ≤ 62 → (∀ p ∈ pixels, 1 ≤ p.id ∧ p.id ≤ 256) → ∃ payload : List Byte,
      exec (.rgbEncode pixels) s = .next { s with
        responses := s.responses ++ [{ status := .ok, data := .bytes payload }] } ∧
      payload.length = 2 + 4 * pixels.length ∧
      payload = [0x01#8, BitVec.ofNat 8 pixels.length] ++
        pixels.flatMap (fun p => [BitVec.ofNat 8 (p.id - 1), p.r, p.g, p.b]))

/-- 42_rgb_payload.md R145 (decision D14): refused exactly for a payload that is too short, has another tag, a count above 62,
or a length other than `2 + 4*n`; else the `n` pixels, each read at its offsets. No register is written. -/
def Obligations.RgbDecodeReadsThePixels : Prop :=
  ∀ (payload : List Byte) (n : Nat) (s : State), n = (payload.getD 1 0#8).toNat →
    (payload.length < 2 ∨ payload.getD 0 0#8 ≠ 0x01#8 ∨ 62 < n ∨ payload.length ≠ 2 + 4 * n →
      exec (.rgbDecode payload) s = .next { s with
        responses := s.responses ++ [{ status := .invalidArgument, data := .empty }] }) ∧
    (payload.getD 0 0#8 = 0x01#8 → n ≤ 62 → payload.length = 2 + 4 * n →
      exec (.rgbDecode payload) s = .next { s with
        responses := s.responses ++ [{
          status := .ok,
          data := .pixels ((List.range n).map (fun i => {
            id := (payload.getD (2 + 4 * i) 0#8).toNat + 1,
            r := payload.getD (3 + 4 * i) 0#8, g := payload.getD (4 + 4 * i) 0#8, b := payload.getD (5 + 4 * i) 0#8 })) }] })

/-- 42_rgb_payload.md R147 (marked derived), both directions, as answers of the two commands. -/
def Obligations.RgbRoundTrip : Prop :=
  ∀ (pixels : List Pixel) (payload : List Byte) (s : State),
    (exec (.rgbEncode pixels) s = .next { s with
        responses := s.responses ++ [{ status := .ok, data := .bytes payload }] } →
      exec (.rgbDecode payload) s = .next { s with
        responses := s.responses ++ [{ status := .ok, data := .pixels pixels }] }) ∧
    (exec (.rgbDecode payload) s = .next { s with
        responses := s.responses ++ [{ status := .ok, data := .pixels pixels }] } →
      exec (.rgbEncode pixels) s = .next { s with
        responses := s.responses ++ [{ status := .ok, data := .bytes payload }] })

/-- 42_rgb_payload.md R143 (marked derived) and the pseudo-command `RGB_FRAME` (30_encoding.md R74, decision D21): accepted
pixels always give a payload and its frame under function code 0x0B; refused pixels give the one refusal and no `ENCODE`. -/
def Obligations.RgbFrameOfAcceptedPixels : Prop :=
  ∀ (pixels : List Pixel) (s : State),
    ((Instr.rgbEncode pixels).wellFormed = true →
      rgbFrame pixels s = .next { s with
        responses := s.responses ++
          [{ status := .ok, data := .bytes (rgbPayload pixels) },
           { status := .ok, data := .bytes (frameBytes s.crcTable 0x0B#8 (rgbPayload pixels)) }] }) ∧
    ((Instr.rgbEncode pixels).wellFormed = false →
      rgbFrame pixels s = .next { s with
        responses := s.responses ++ [{ status := .invalidArgument, data := .empty }] })

/-! ## The frame receiver, state by state -/

/-- 43_frame_receiver.md R161. -/
def Obligations.FeedInAwaitStart1 : Prop :=
  ∀ (b : Byte) (s : State), s.rx.state = .awaitStart1 →
    exec (.rxFeed b) s = .next { s with
      rx := if b = 0xAA#8 then { s.rx with state := .awaitStart2 } else s.rx,
      responses := s.responses ++ [{ status := .noFrame, data := .empty }] }

/-- 43_frame_receiver.md R162 (marked derived; 90_conflicts.md C6): a second 0xAA keeps the scan where it is. -/
def Obligations.FeedInAwaitStart2 : Prop :=
  ∀ (b : Byte) (s : State), s.rx.state = .awaitStart2 →
    exec (.rxFeed b) s = .next { s with
      rx := { s.rx with
        state := if b = 0x55#8 then .awaitFunction else if b = 0xAA#8 then .awaitStart2 else .awaitStart1 },
      responses := s.responses ++ [{ status := .noFrame, data := .empty }] }

/-- 43_frame_receiver.md R163 (decisions D6, D10): any byte is taken as the function code, reserved ones too. -/
def Obligations.FeedInAwaitFunction : Prop :=
  ∀ (b : Byte) (s : State), s.rx.state = .awaitFunction →
    exec (.rxFeed b) s = .next { s with
      rx := { s.rx with func := b, crc := tableEntry s.crcTable b, state := .awaitLength },
      responses := s.responses ++ [{ status := .noFrame, data := .empty }] }

/-- 30_encoding.md R64 with 43_frame_receiver.md R163: each function row, taken at wire frame offset 2, is stored as its code,
starts the running CRC and is answered `NO_FRAME`. That a row's instruction is the feed of its byte is the model's reading
(log 5). -/
def Obligations.FunctionRowsAreTakenAtOffsetTwo : Prop :=
  ∀ p ∈ ([(0x01#8, .funcLed), (0x02#8, .funcBuzzer), (0x03#8, .funcMotor), (0x04#8, .funcPwmServo), (0x05#8, .funcBusServo),
      (0x06#8, .funcKey), (0x07#8, .funcImu), (0x08#8, .funcGamepad), (0x09#8, .funcSbus), (0x0A#8, .funcOled),
      (0x0B#8, .funcRgb)] : List (Byte × Instr)),
    ∀ s : State, s.rx.state = .awaitFunction →
      exec p.2 s = .next { s with
        rx := { s.rx with func := p.1, crc := tableEntry s.crcTable p.1, state := .awaitLength },
        responses := s.responses ++ [{ status := .noFrame, data := .empty }] }

/-- 43_frame_receiver.md R164: a length of 0..251, 0 advancing straight to the checksum. -/
def Obligations.FeedInAwaitLength : Prop :=
  ∀ (b : Byte) (s : State), s.rx.state = .awaitLength → b.toNat ≤ 251 →
    exec (.rxFeed b) s = .next { s with
      rx := { s.rx with
        len := b, crc := tableEntry s.crcTable (s.rx.crc ^^^ b), buf := [], remaining := b,
        state := if b = 0#8 then .awaitChecksum else .awaitData },
      responses := s.responses ++ [{ status := .noFrame, data := .empty }] }

/-- 43_frame_receiver.md R165 (the status is the spec's decision D7): a length of 252..255 discards the frame. -/
def Obligations.LengthErrorDiscardsTheFrame : Prop :=
  ∀ (b : Byte) (s : State), s.rx.state = .awaitLength → 252 ≤ b.toNat →
    exec (.rxFeed b) s = .next { s with
      rx := { state := .awaitStart1, func := 0#8, len := 0#8, remaining := 0#8, buf := [], crc := 0#8 },
      responses := s.responses ++ [{ status := .lengthError, data := .empty }] }

/-- 43_frame_receiver.md R166, in the states R24 allows: the byte is appended and folded, the count goes down by one without
wrapping, the buffer stays within `rx_len <= 251` bytes, and the last byte moves on to the checksum. -/
def Obligations.FeedInAwaitData : Prop :=
  ∀ (b : Byte) (s : State), s.Inv → s.rx.state = .awaitData →
    ∃ r : Byte, r.toNat + 1 = s.rx.remaining.toNat ∧ (s.rx.buf ++ [b]).length ≤ s.rx.len.toNat ∧ s.rx.len.toNat ≤ 251 ∧
      exec (.rxFeed b) s = .next { s with
        rx := { s.rx with
          buf := s.rx.buf ++ [b], crc := tableEntry s.crcTable (s.rx.crc ^^^ b), remaining := r,
          state := if r = 0#8 then .awaitChecksum else .awaitData },
        responses := s.responses ++ [{ status := .noFrame, data := .empty }] }

/-- 43_frame_receiver.md R167 (that the frame is carried in the response is the spec's decision D11): the checksum byte equal to
the running CRC delivers function and payload and clears the receiver. -/
def Obligations.MatchingChecksumDeliversTheFrame : Prop :=
  ∀ s : State, s.rx.state = .awaitChecksum →
    exec (.rxFeed s.rx.crc) s = .next { s with
      rx := { state := .awaitStart1, func := 0#8, len := 0#8, remaining := 0#8, buf := [], crc := 0#8 },
      responses := s.responses ++
        [{ status := .frameReady, data := .frame { function := s.rx.func, payload := s.rx.buf } }] }

/-- 43_frame_receiver.md R168. -/
def Obligations.ChecksumMismatchDiscardsTheFrame : Prop :=
  ∀ (b : Byte) (s : State), s.rx.state = .awaitChecksum → b ≠ s.rx.crc →
    exec (.rxFeed b) s = .next { s with
      rx := { state := .awaitStart1, func := 0#8, len := 0#8, remaining := 0#8, buf := [], crc := 0#8 },
      responses := s.responses ++ [{ status := .checksumMismatch, data := .empty }] }

/-- 43_frame_receiver.md R180 (decision D25) and 20_memory.md R49 (marked derived): `RX_RESET` clears every receiver register
without a report, whatever frame was in progress, and a second one changes no register. -/
def Obligations.RxResetClearsTheReceiver : Prop :=
  ∀ s : State, ∃ t u : State,
    exec .rxReset s = .next t ∧
    t = { s with
      rx := { state := .awaitStart1, func := 0#8, len := 0#8, remaining := 0#8, buf := [], crc := 0#8 },
      responses := s.responses ++ [{ status := .ok, data := .empty }] } ∧
    exec .rxReset t = .next u ∧ u.rx = t.rx

/-- 43_frame_receiver.md R181 (decision D22) with the codes of 10_state.md R23 (decision D4): `RX_STATE` answers the code of
`rx_state` and changes no register. -/
def Obligations.RxStateAnswersTheStateCode : Prop :=
  ∀ s : State, ∀ p ∈ ([(.awaitStart1, 0#8), (.awaitStart2, 1#8), (.awaitFunction, 2#8), (.awaitLength, 3#8), (.awaitData, 4#8),
      (.awaitChecksum, 5#8)] : List (RxState × Byte)),
    s.rx.state = p.1 →
      exec .rxState s = .next { s with responses := s.responses ++ [{ status := .ok, data := .bytes [p.2] }] }

/-! ## Reset, the invariant, and the whole machine -/

/-- 10_state.md R30: the receiver's registers after reset (all but `rx_state` are the spec's decision D9), the default table
(log 4), an empty port (log 1), no response given (log 2). -/
def Obligations.ResetState : Prop :=
  State.reset.rx = { state := .awaitStart1, func := 0#8, len := 0#8, remaining := 0#8, buf := [], crc := 0#8 } ∧
  State.reset.crcTable = dallasMaximTable ∧ State.reset.pending = [] ∧ State.reset.responses = []

/-- 10_state.md R24 (marked derived): the invariant holds at reset, under every table. -/
def Obligations.ResetMeetsTheReceiverInvariant : Prop :=
  ∀ T : CrcTable, ({ State.reset with crcTable := T } : State).Inv

/-- 10_state.md R24 (marked derived): every step, on any command or none, keeps the invariant. -/
def Obligations.StepKeepsTheReceiverInvariant : Prop :=
  ∀ s t : State, s.Inv → step s = .next t → t.Inv

/-- 10_state.md R26: no instruction and no step writes `CRC8_TABLE`. -/
def Obligations.CrcTableIsNeverWritten : Prop :=
  (∀ (i : Instr) (s t : State), exec i s = .next t → t.crcTable = s.crcTable) ∧
  (∀ s t : State, step s = .next t → t.crcTable = s.crcTable)

/-- 60_exceptions.md R200: every command, defined or not, is answered exactly once, after all earlier answers, and data is
empty for every status other than `OK` and `FRAME_READY`, a frame under `FRAME_READY`, and no frame under `OK`. The rest of the port is left as it was. -/
def Obligations.EveryCommandAnswersExactlyOnce : Prop :=
  ∀ (s : State) (r : Request) (rest : List Request), s.pending = r :: rest →
    ∃ (t : State) (resp : Response), step s = .next t ∧ t.pending = rest ∧ t.responses = s.responses ++ [resp] ∧
      (resp.status ≠ .ok → resp.status ≠ .frameReady → resp.data = .empty) ∧ resp.wellFormed = true

/-- 60_exceptions.md R205: no condition is fatal, and an error answer is precise: `INVALID_ARGUMENT` and `ILLEGAL_COMMAND`
change no state, `CHECKSUM_MISMATCH` and `LENGTH_ERROR` leave exactly `rx_clear()`. -/
def Obligations.ErrorsArePreciseAndNeverFatal : Prop :=
  (∀ s : State, ∃ t : State, step s = .next t) ∧
  ∀ (s t : State) (r : Request) (rest : List Request) (resp : Response),
    s.pending = r :: rest → step s = .next t → t.responses = s.responses ++ [resp] →
      (resp.status = .invalidArgument ∨ resp.status = .illegalCommand →
        t = { s with pending := rest, responses := s.responses ++ [resp] }) ∧
      (resp.status = .checksumMismatch ∨ resp.status = .lengthError →
        t = { s with
          rx := { state := .awaitStart1, func := 0#8, len := 0#8, remaining := 0#8, buf := [], crc := 0#8 },
          pending := rest, responses := s.responses ++ [resp] })

/-- 60_exceptions.md R202 with R160 of 43_frame_receiver.md: which instruction answers which status, and exactly when (the id
range, the strict decoder and the status of a bad length are decisions D13, D14, D7; function rows feed their byte, log 5). -/
def Obligations.StatusCauses : Prop :=
  ∀ (i : Instr) (s : State), ∃ (t : State) (resp : Response),
    exec i s = .next t ∧ t.responses = s.responses ++ [resp] ∧
    (resp.status = .invalidArgument ↔ i.wellFormed = false) ∧
    (resp.status = .ok ↔ fedByte i = none ∧ i.wellFormed = true) ∧
    (resp.status = .frameReady ↔
      ∃ b, fedByte i = some b ∧ s.rx.state = .awaitChecksum ∧ b = s.rx.crc) ∧
    (resp.status = .checksumMismatch ↔
      ∃ b, fedByte i = some b ∧ s.rx.state = .awaitChecksum ∧ b ≠ s.rx.crc) ∧
    (resp.status = .lengthError ↔
      ∃ b, fedByte i = some b ∧ s.rx.state = .awaitLength ∧ 251 < b.toNat) ∧
    (resp.status = .noFrame ↔
      ∃ b, fedByte i = some b ∧ s.rx.state ≠ .awaitChecksum ∧ (s.rx.state = .awaitLength → b.toNat ≤ 251)) ∧
    resp.status ≠ .illegalCommand

/-- 10_state.md R20: `CRC8`, `ENCODE`, `RGB_ENCODE` and `RGB_DECODE` read only their operands and `CRC8_TABLE` and write only
their response: one and the same answer in every state with the same table, and nothing else changes. -/
def Obligations.CodecUnitsArePure : Prop :=
  ∀ (T : CrcTable) (i : Instr),
    (∃ data, i = .crc8 data) ∨ (∃ func payload, i = .encode func payload) ∨ (∃ pixels, i = .rgbEncode pixels) ∨
      (∃ payload, i = .rgbDecode payload) →
    ∃ resp : Response, ∀ s : State, s.crcTable = T →
      exec i s = .next { s with responses := s.responses ++ [resp] }

/-- 43_frame_receiver.md R182 (marked derived): a step on any command but `RX_FEED` (code 0x05) and `RX_RESET` (code 0x06),
undefined codes included, leaves the receiver as it was. -/
def Obligations.OnlyFeedAndResetChangeTheReceiver : Prop :=
  ∀ (s t : State) (r : Request) (rest : List Request),
    s.pending = r :: rest → r.code ≠ 0x05#8 → r.code ≠ 0x06#8 → step s = .next t → t.rx = s.rx

/-- 60_exceptions.md R201 (decision D3): the status codes, no two alike. -/
def Obligations.StatusCodes : Prop :=
  statusCode .ok = 0x00#8 ∧ statusCode .invalidArgument = 0x01#8 ∧ statusCode .noFrame = 0x02#8 ∧
  statusCode .frameReady = 0x03#8 ∧ statusCode .checksumMismatch = 0x04#8 ∧ statusCode .lengthError = 0x05#8 ∧
  statusCode .illegalCommand = 0x0F#8 ∧ Function.Injective statusCode

/-- 30_encoding.md R64, R65 (that 0x00 is unknown is decision D12): `classify` on every byte. -/
def Obligations.ClassifyEveryByte : Prop :=
  classify 0x01#8 = .led ∧ classify 0x02#8 = .buzzer ∧ classify 0x03#8 = .motor ∧ classify 0x04#8 = .pwmServo ∧
  classify 0x05#8 = .busServo ∧ classify 0x06#8 = .key ∧ classify 0x07#8 = .imu ∧ classify 0x08#8 = .gamepad ∧
  classify 0x09#8 = .sbus ∧ classify 0x0A#8 = .oled ∧ classify 0x0B#8 = .rgb ∧
  ∀ code : Byte, code = 0x00#8 ∨ 0x0C ≤ code.toNat → classify code = .unknown

/-! ## Runs -/

/-- 20_memory.md R47, R50 and 70_reset_and_hazards.md R251 (decisions D20, D26; the port is log 1): a run over the port's list
answers every command, each once and in order, and ends with an empty port. After `k` steps exactly the first `k` commands have
left the port and exactly their answers stand after the earlier responses; answer `k` is the one that the step on command `k`
adds in the state the earlier commands left: the answer of the instruction the command decodes to there, or
`ILLEGAL_COMMAND` for a code that is none. -/
def Obligations.RunAnswersEveryCommandInOrder : Prop :=
  ∀ s : State, ∃ answers : List Response, answers.length = s.pending.length ∧
    ∀ k, k ≤ s.pending.length → ∃ t : State, run k s = .next t ∧
      t.pending = s.pending.drop k ∧ t.responses = s.responses ++ answers.take k ∧
      (t.runEnded = true ↔ k = s.pending.length) ∧
      ∀ r : Request, s.pending[k]? = some r → ∃ (u : State) (resp : Response), answers[k]? = some resp ∧
        step t = .next u ∧ u.responses = t.responses ++ [resp] ∧
        (∀ i, decode t.rx.state r = .ok i → exec i { t with pending := s.pending.drop (k + 1) } = .next u) ∧
        (∀ e, decode t.rx.state r = .error e → resp = { status := .illegalCommand, data := .empty })

/-- 43_frame_receiver.md R175 and R173(b) (marked derived): the bytes of a frame, fed to a receiver in either start state, are
answered `NO_FRAME` but for the last, which delivers exactly the function and payload encoded; the receiver ends cleared.
For every table. -/
def Obligations.FrameRoundTrip : Prop :=
  ∀ (s : State) (func : Byte) (payload : List Byte) (rest : List Request), payload.length ≤ 251 →
    s.rx.state = .awaitStart1 ∨ s.rx.state = .awaitStart2 →
    s.pending = (frameBytes s.crcTable func payload).map feedRequest ++ rest →
      run (payload.length + 5) s = .next { s with
        rx := { state := .awaitStart1, func := 0#8, len := 0#8, remaining := 0#8, buf := [], crc := 0#8 },
        pending := rest,
        responses := s.responses ++ List.replicate (payload.length + 4) { status := .noFrame, data := .empty } ++
          [{ status := .frameReady, data := .frame { function := func, payload := payload } }] }

/-- 20_memory.md R51 with 43_frame_receiver.md R174 and R175 (marked derived), for the encoder's frames fed back to back from
`AWAIT_START1`: each is delivered whole in the answer to its own checksum byte, one frame per such byte and none elsewhere, in
the order fed. Any other stream is `FramesComeInTheOrderOfTheirChecksumBytes`. -/
def Obligations.FramesAreDeliveredInFeedOrder : Prop :=
  ∀ (s : State) (frames : List Frame) (rest : List Request), (∀ f ∈ frames, f.payload.length ≤ 251) →
    s.rx.state = .awaitStart1 →
    ∀ stream : List Byte, stream = frames.flatMap (fun f => frameBytes s.crcTable f.function f.payload) →
    s.pending = stream.map feedRequest ++ rest →
      ∃ t : State, run stream.length s = .next t ∧ t.pending = rest ∧ t.rx.state = .awaitStart1 ∧
        t.responses = s.responses ++ frames.flatMap (fun f =>
          List.replicate (f.payload.length + 4) { status := .noFrame, data := .empty } ++
            [{ status := .frameReady, data := .frame f }])

/-- 30_encoding.md R74 (decision D21) with 43_frame_receiver.md R175 (marked derived): the loop-back `SEND_AND_RECEIVE` on a
receiver in `AWAIT_START1` answers the frame, then delivers what was sent; an oversized payload is refused and nothing is fed. -/
def Obligations.SendAndReceiveLoopsBack : Prop :=
  ∀ (s : State) (func : Byte) (payload : List Byte),
    (payload.length ≤ 251 → s.rx.state = .awaitStart1 →
      sendAndReceive func payload s = .next { s with
        rx := { state := .awaitStart1, func := 0#8, len := 0#8, remaining := 0#8, buf := [], crc := 0#8 },
        responses := s.responses ++ [{ status := .ok, data := .bytes (frameBytes s.crcTable func payload) }] ++
          List.replicate (payload.length + 4) { status := .noFrame, data := .empty } ++
          [{ status := .frameReady, data := .frame { function := func, payload := payload } }] }) ∧
    (251 < payload.length →
      sendAndReceive func payload s = .next { s with
        responses := s.responses ++ [{ status := .invalidArgument, data := .empty }] })

/-- 43_frame_receiver.md R176 (marked derived, log 4): under the default table, one flipped bit in the function byte, a payload
byte or the checksum byte of a frame gives `CHECKSUM_MISMATCH` at its last byte, and a valid frame right after it is
delivered. -/
def Obligations.SingleBitCorruptionIsCaught : Prop :=
  ∀ (s : State) (func func' : Byte) (payload payload' : List Byte) (rest : List Request) (i : Nat) (k : Fin 8),
    s.crcTable = dallasMaximTable → payload.length ≤ 251 → payload'.length ≤ 251 → s.rx.state = .awaitStart1 →
    i = 2 ∨ 4 ≤ i → i < payload.length + 5 →
    ∀ frame : List Byte, frame = frameBytes dallasMaximTable func payload →
    s.pending = ((frame.set i (frame.getD i 0#8 ^^^ 1#8 <<< k.val)) ++
      frameBytes dallasMaximTable func' payload').map feedRequest ++ rest →
      run (payload.length + 5 + (payload'.length + 5)) s = .next { s with
        rx := { state := .awaitStart1, func := 0#8, len := 0#8, remaining := 0#8, buf := [], crc := 0#8 },
        pending := rest,
        responses := s.responses ++ List.replicate (payload.length + 4) { status := .noFrame, data := .empty } ++
          [{ status := .checksumMismatch, data := .empty }] ++
          List.replicate (payload'.length + 4) { status := .noFrame, data := .empty } ++
          [{ status := .frameReady, data := .frame { function := func', payload := payload' } }] }

/-- 70_reset_and_hazards.md R242 (marked derived): a frame built with a peer's table is delivered exactly when the two tables
give its span the same checksum, and is otherwise reported `CHECKSUM_MISMATCH`; the receiver ends cleared either way. -/
def Obligations.PeerWithAnotherTable : Prop :=
  ∀ (s : State) (peer : CrcTable) (func : Byte) (payload : List Byte) (rest : List Request), payload.length ≤ 251 →
    s.rx.state = .awaitStart1 →
    s.pending = (frameBytes peer func payload).map feedRequest ++ rest →
      run (payload.length + 5) s = .next { s with
        rx := { state := .awaitStart1, func := 0#8, len := 0#8, remaining := 0#8, buf := [], crc := 0#8 },
        pending := rest,
        responses := s.responses ++ List.replicate (payload.length + 4) { status := .noFrame, data := .empty } ++
          [if crc8 peer ([func, BitVec.ofNat 8 payload.length] ++ payload) =
              crc8 s.crcTable ([func, BitVec.ofNat 8 payload.length] ++ payload)
            then { status := .frameReady, data := .frame { function := func, payload := payload } }
            else { status := .checksumMismatch, data := .empty }] }

/-- 43_frame_receiver.md R173(a) (marked derived): from a field state that meets R24, whatever bytes arrive, at most 254 of
them bring the receiver back to `AWAIT_START1`. -/
def Obligations.FieldStatesRecoverWithin254Bytes : Prop :=
  ∀ (s : State) (bytes : List Byte), s.Inv → s.rx.state ≠ .awaitStart1 → s.rx.state ≠ .awaitStart2 →
    bytes.length = 254 →
      ∃ (k : Nat) (t : State), 1 ≤ k ∧ k ≤ 254 ∧ rxFeeds (bytes.take k) s = .next t ∧ t.rx.state = .awaitStart1

/-- 43_frame_receiver.md R173(c) (marked derived): a receiver in a start state leaves the scan once a pair 0xAA 0x55 has
arrived, whatever came before the pair. -/
def Obligations.StartPairEndsTheScan : Prop :=
  ∀ (s : State) (before after : List Byte), s.rx.state = .awaitStart1 ∨ s.rx.state = .awaitStart2 →
    ∃ (k : Nat) (t : State), k ≤ before.length + 2 ∧
      rxFeeds ((before ++ [0xAA#8, 0x55#8] ++ after).take k) s = .next t ∧ t.rx.state = .awaitFunction

/-- 10_state.md R31 (marked derived): two receivers in `AWAIT_START1` that differ in `rx_func`, `rx_len`, `rx_remaining`,
`rx_buf` and `rx_crc`, whatever those hold, answer every run of commands alike and stay in the same `rx_state`. -/
def Obligations.DataRegistersAreUnobservableAtStart : Prop :=
  ∀ (s : State) (rx : Receiver) (n : Nat), s.rx.state = .awaitStart1 → rx.state = .awaitStart1 →
    ∃ t t' : State, run n s = .next t ∧ run n { s with rx := rx } = .next t' ∧
      t.responses = t'.responses ∧ t.rx.state = t'.rx.state ∧ t.pending = t'.pending

/-- 41_frame_encoder.md R120's worked example under the default table, whose bytes are general knowledge (log 4): `ENCODE 0x0B`
of the empty payload. -/
def Obligations.EncodeWorkedExample : Prop :=
  ∀ s : State, s.crcTable = dallasMaximTable →
    exec (.encode 0x0B#8 []) s = .next { s with
      responses := s.responses ++ [{ status := .ok, data := .bytes [0xAA#8, 0x55#8, 0x0B#8, 0x00#8, 0x23#8] }] }

/-- 20_memory.md R51, over any commands whatever (noise, failed frames, resets and other commands in between) and from any
state: answer `k` of a run, which stands after the answers of the commands before it, delivers a frame exactly when command `k`
is an `RX_FEED` (code 0x05) that carries the checksum byte the receiver then awaits, and it delivers the function and payload the
receiver then holds. So each frame comes in the answer to its own checksum byte, at most one per feed, in feed order. -/
def Obligations.FramesComeInTheOrderOfTheirChecksumBytes : Prop :=
  ∀ s : State, ∃ answers : List Response, answers.length = s.pending.length ∧
    ∀ k, k ≤ s.pending.length → ∃ t : State, run k s = .next t ∧ t.responses = s.responses ++ answers.take k ∧
      ∀ frame : Frame,
        (∃ status : Status, answers[k]? = some { status := status, data := .frame frame }) ↔
          ∃ o : Operands, s.pending[k]? = some { code := 0x05#8, operands := o } ∧ t.rx.state = .awaitChecksum ∧
            o.byte = t.rx.crc ∧ frame = { function := t.rx.func, payload := t.rx.buf }

/-- 43_frame_receiver.md R161 to R168 with 30_encoding.md R60, R62: over any commands from `AWAIT_START1`, a delivered frame
was received whole: the bytes of the frame the encoder builds from its function and payload are the last bytes fed, with the
command that delivers it among the feeds. -/
def Obligations.DeliveredFramesWereReceivedWhole : Prop :=
  ∀ (s t u : State) (k : Nat) (frame : Frame), s.rx.state = .awaitStart1 →
    run k s = .next t → step t = .next u →
    u.responses = t.responses ++ [{ status := .frameReady, data := .frame frame }] →
      frame.payload.length ≤ 251 ∧
      frameBytes s.crcTable frame.function frame.payload <:+ bytesFed (s.pending.take (k + 1))
end

