-- ==== Sys2Proof/Laws/Checksum.lean ====
section
/-! SUPPORT. The small lemmas of the checksum's definitions (40_crc8.md R100, R102). -/

namespace Sys2Proof.Machine

theorem crc8Update_eq (T : CrcTable) (acc b : Byte) : crc8Update T acc b = tableEntry T (acc ^^^ b) := rfl

@[simp] theorem crc8From_nil (T : CrcTable) (acc : Byte) : crc8From T acc [] = acc := rfl

@[simp] theorem crc8From_cons (T : CrcTable) (acc b : Byte) (rest : List Byte) :
    crc8From T acc (b :: rest) = crc8From T (crc8Update T acc b) rest := rfl

theorem crc8_eq_crc8From (T : CrcTable) (data : List Byte) : crc8 T data = crc8From T 0 data := rfl

/-- A fold over a concatenation goes on from where the first part ended. -/
theorem crc8From_append (T : CrcTable) (acc : Byte) (x y : List Byte) :
    crc8From T acc (x ++ y) = crc8From T (crc8From T acc x) y := by
  induction x generalizing acc with
  | nil => rfl
  | cons b x ih => exact ih _

/-- The fold is the library's left fold of the update step. -/
theorem crc8From_eq_foldl (T : CrcTable) (acc : Byte) (data : List Byte) :
    crc8From T acc data = data.foldl (crc8Update T) acc := by
  induction data generalizing acc with
  | nil => rfl
  | cons b data ih => exact ih _

end Sys2Proof.Machine
end

