-- ==== Sys2Proof/Laws/State.lean ====
section
/-! SUPPORT. One lemma per field per update of the state, so that no proof unfolds a record update. -/

namespace Sys2Proof.Machine

@[simp] theorem respond_crcTable (status : Status) (data : Data) (s : State) :
    (respond status data s).crcTable = s.crcTable := rfl
@[simp] theorem respond_rx (status : Status) (data : Data) (s : State) :
    (respond status data s).rx = s.rx := rfl
@[simp] theorem respond_pending (status : Status) (data : Data) (s : State) :
    (respond status data s).pending = s.pending := rfl
@[simp] theorem respond_responses (status : Status) (data : Data) (s : State) :
    (respond status data s).responses = s.responses ++ [{ status := status, data := data }] := rfl

@[simp] theorem setReceiver_crcTable (rx : Receiver) (s : State) :
    (setReceiver rx s).crcTable = s.crcTable := rfl
@[simp] theorem setReceiver_rx (rx : Receiver) (s : State) :
    (setReceiver rx s).rx = rx := rfl
@[simp] theorem setReceiver_pending (rx : Receiver) (s : State) :
    (setReceiver rx s).pending = s.pending := rfl
@[simp] theorem setReceiver_responses (rx : Receiver) (s : State) :
    (setReceiver rx s).responses = s.responses := rfl

@[simp] theorem setPending_crcTable (rest : List Request) (s : State) :
    (setPending rest s).crcTable = s.crcTable := rfl
@[simp] theorem setPending_rx (rest : List Request) (s : State) :
    (setPending rest s).rx = s.rx := rfl
@[simp] theorem setPending_pending (rest : List Request) (s : State) :
    (setPending rest s).pending = rest := rfl
@[simp] theorem setPending_responses (rest : List Request) (s : State) :
    (setPending rest s).responses = s.responses := rfl

@[simp] theorem rxClear_crcTable (s : State) :
    (rxClear s).crcTable = s.crcTable := rfl
@[simp] theorem rxClear_rx (s : State) :
    (rxClear s).rx = clearedReceiver := rfl
@[simp] theorem rxClear_pending (s : State) :
    (rxClear s).pending = s.pending := rfl
@[simp] theorem rxClear_responses (s : State) :
    (rxClear s).responses = s.responses := rfl

@[simp] theorem raiseInvalidArgument_crcTable (s : State) :
    (raiseInvalidArgument s).crcTable = s.crcTable := rfl
@[simp] theorem raiseInvalidArgument_rx (s : State) :
    (raiseInvalidArgument s).rx = s.rx := rfl
@[simp] theorem raiseInvalidArgument_pending (s : State) :
    (raiseInvalidArgument s).pending = s.pending := rfl
@[simp] theorem raiseInvalidArgument_responses (s : State) :
    (raiseInvalidArgument s).responses = s.responses ++ [{ status := .invalidArgument, data := .empty }] := rfl

@[simp] theorem answerIllegalCommand_crcTable (s : State) :
    (answerIllegalCommand s).crcTable = s.crcTable := rfl
@[simp] theorem answerIllegalCommand_rx (s : State) :
    (answerIllegalCommand s).rx = s.rx := rfl
@[simp] theorem answerIllegalCommand_pending (s : State) :
    (answerIllegalCommand s).pending = s.pending := rfl
@[simp] theorem answerIllegalCommand_responses (s : State) :
    (answerIllegalCommand s).responses = s.responses ++ [{ status := .illegalCommand, data := .empty }] := rfl

@[simp] theorem placeRequest_crcTable (r : Request) (s : State) :
    (placeRequest r s).crcTable = s.crcTable := rfl
@[simp] theorem placeRequest_rx (r : Request) (s : State) :
    (placeRequest r s).rx = s.rx := rfl
@[simp] theorem placeRequest_pending (r : Request) (s : State) :
    (placeRequest r s).pending = r :: s.pending := rfl
@[simp] theorem placeRequest_responses (r : Request) (s : State) :
    (placeRequest r s).responses = s.responses := rfl

@[simp] theorem atFunctionByte_crcTable (s : State) :
    (atFunctionByte s).crcTable = s.crcTable := rfl
@[simp] theorem atFunctionByte_rx (s : State) :
    (atFunctionByte s).rx = { clearedReceiver with state := .awaitFunction } := rfl
@[simp] theorem atFunctionByte_pending (s : State) :
    (atFunctionByte s).pending = s.pending := rfl
@[simp] theorem atFunctionByte_responses (s : State) :
    (atFunctionByte s).responses = s.responses := rfl

@[simp] theorem feedByte_crcTable (b : Byte) (s : State) :
    (feedByte b s).crcTable = s.crcTable := rfl
@[simp] theorem feedByte_rx (b : Byte) (s : State) :
    (feedByte b s).rx = (feed s.crcTable s.rx b).1 := rfl
@[simp] theorem feedByte_pending (b : Byte) (s : State) :
    (feedByte b s).pending = s.pending := rfl
@[simp] theorem feedByte_responses (b : Byte) (s : State) :
    (feedByte b s).responses = s.responses ++ [(feed s.crcTable s.rx b).2] := rfl

end Sys2Proof.Machine
end

