-- ==== Sys2Proof/Laws/Receiver.lean ====
section
/-! SUPPORT. What the receiver's step does in each of its states (43_frame_receiver.md R161 to R169), and, once for every
state, everything it can do. -/

namespace Sys2Proof.Machine

section
variable {T : CrcTable} {rx : Receiver} {b : Byte}

theorem feed_of_awaitStart1 (h : rx.state = .awaitStart1) : feed T rx b = feedStart1 rx b := by simp [feed, h]
theorem feed_of_awaitStart2 (h : rx.state = .awaitStart2) : feed T rx b = feedStart2 rx b := by simp [feed, h]
theorem feed_of_awaitFunction (h : rx.state = .awaitFunction) : feed T rx b = feedFunction T rx b := by simp [feed, h]
theorem feed_of_awaitLength (h : rx.state = .awaitLength) : feed T rx b = feedLength T rx b := by simp [feed, h]
theorem feed_of_awaitData (h : rx.state = .awaitData) : feed T rx b = feedData T rx b := by simp [feed, h]
theorem feed_of_awaitChecksum (h : rx.state = .awaitChecksum) : feed T rx b = feedChecksum rx b := by simp [feed, h]

/-- Everything the receiver's step can do: a start-scan move, a field byte taken, or the frame ended one way or another. -/
theorem feed_cases (T : CrcTable) (rx : Receiver) (b : Byte) :
    (∃ st, (rx.state = .awaitStart1 ∨ rx.state = .awaitStart2) ∧
        (st = .awaitStart1 ∨ st = .awaitStart2 ∨ st = .awaitFunction) ∧
        feed T rx b = ({ rx with state := st }, noFrame)) ∨
    (rx.state = .awaitFunction ∧
        feed T rx b = ({ rx with func := b, crc := crc8Update T 0#8 b, state := .awaitLength }, noFrame)) ∨
    (rx.state = .awaitLength ∧ b.toNat ≤ 251 ∧
        feed T rx b = ({ rx with
          len := b, crc := crc8Update T rx.crc b, buf := [], remaining := b,
          state := if b = 0#8 then .awaitChecksum else .awaitData }, noFrame)) ∨
    (rx.state = .awaitData ∧
        feed T rx b = ({ rx with
          buf := rx.buf ++ [b], crc := crc8Update T rx.crc b, remaining := rx.remaining - 1#8,
          state := if rx.remaining - 1#8 = 0#8 then .awaitChecksum else .awaitData }, noFrame)) ∨
    (rx.state = .awaitLength ∧ 251 < b.toNat ∧
        feed T rx b = (clearedReceiver, { status := .lengthError, data := .empty })) ∨
    (rx.state = .awaitChecksum ∧ b = rx.crc ∧
        feed T rx b = (clearedReceiver,
          { status := .frameReady, data := .frame { function := rx.func, payload := rx.buf } })) ∨
    (rx.state = .awaitChecksum ∧ b ≠ rx.crc ∧
        feed T rx b = (clearedReceiver, { status := .checksumMismatch, data := .empty })) := by
  rcases rx with ⟨st, fn, len, rem, buf, crc⟩
  cases st
  · left
    by_cases h : b = 0xAA#8
    · exact ⟨.awaitStart2, by simp [feed, feedStart1, h]⟩
    · exact ⟨.awaitStart1, .inl rfl, .inl rfl, if_neg h⟩
  · left
    by_cases h : b = 0x55#8
    · exact ⟨.awaitFunction, by simp [feed, feedStart2, h]⟩
    · by_cases h' : b = 0xAA#8
      · exact ⟨.awaitStart2, by simp [feed, feedStart2, h']⟩
      · exact ⟨.awaitStart1, .inr rfl, .inl rfl, (if_neg h).trans (if_neg h')⟩
  · simp [feed, feedFunction]
  · by_cases h : 251 < b.toNat
    · simp [feed, feedLength, h]
    · simp [feed, feedLength, h]; omega
  · simp [feed, feedData]
  · by_cases h : b = crc <;> simp [feed, feedChecksum, h]

end

end Sys2Proof.Machine
end

