-- ==== Sys2Proof/Laws/Exec.lean ====
section
/-! SUPPORT. Each meaning as one equation, for provers to cite instead of unfolding: what `exec` answers for every row. -/

namespace Sys2Proof.Machine

section
variable (s : State)

@[simp] theorem exec_crc8 (data : List Byte) :
    exec (.crc8 data) s = .next (respond .ok (.bytes [crc8 s.crcTable data]) s) := rfl

@[simp] theorem exec_rxFeed (b : Byte) : exec (.rxFeed b) s = .next (feedByte b s) := rfl

@[simp] theorem exec_rxReset : exec .rxReset s = .next (respond .ok .empty (rxClear s)) := rfl

@[simp] theorem exec_rxState :
    exec .rxState s = .next (respond .ok (.bytes [rxStateCode s.rx.state]) s) := rfl

theorem exec_encode (func : Byte) (payload : List Byte) :
    exec (.encode func payload) s =
      .next (if encodeRefuses payload then raiseInvalidArgument s
        else respond .ok (.bytes (frameBytes s.crcTable func payload)) s) := by
  simp only [exec, execEncode]; split <;> rfl

theorem exec_rgbEncode (pixels : List Pixel) :
    exec (.rgbEncode pixels) s =
      .next (if rgbEncodeRefuses pixels then raiseInvalidArgument s
        else respond .ok (.bytes (rgbPayload pixels)) s) := by
  simp only [exec, execRgbEncode]; split <;> rfl

theorem exec_rgbDecode (payload : List Byte) :
    exec (.rgbDecode payload) s =
      .next (if rgbDecodeRefuses payload then raiseInvalidArgument s
        else respond .ok (.pixels (readPixels (payload.drop 2))) s) := by
  simp only [exec, execRgbDecode]; split <;> rfl

/-- A function row runs as the feed of its byte. -/
theorem exec_of_decodeFunctionByte {b : Byte} {i : Instr} (h : decodeFunctionByte b = some i) :
    exec i s = .next (feedByte b s) := by
  have key : ∀ p ∈ functionRows, exec p.2 s = .next (feedByte p.1 s) := by
    intro p hp
    simp only [functionRows, List.mem_cons, List.not_mem_nil, or_false] at hp
    rcases hp with rfl | rfl | rfl | rfl | rfl | rfl | rfl | rfl | rfl | rfl | rfl <;> rfl
  obtain ⟨l₁, l₂, hl, -⟩ := List.lookup_eq_some_iff.mp h
  exact key (b, i) (hl ▸ by simp)

/-- Everything an instruction can do: it writes some receiver registers and gives one answer, and touches nothing else. -/
theorem exec_answers (i : Instr) :
    ∃ (rx : Receiver) (resp : Response), exec i s = .next (respond resp.status resp.data (setReceiver rx s)) := by
  cases i
  case crc8 => exact ⟨s.rx, ⟨_, _⟩, rfl⟩
  case encode => rw [exec_encode]; split <;> exact ⟨s.rx, ⟨_, _⟩, rfl⟩
  case rgbEncode => rw [exec_rgbEncode]; split <;> exact ⟨s.rx, ⟨_, _⟩, rfl⟩
  case rgbDecode => rw [exec_rgbDecode]; split <;> exact ⟨s.rx, ⟨_, _⟩, rfl⟩
  case rxReset => exact ⟨clearedReceiver, ⟨_, _⟩, rfl⟩
  case rxState => exact ⟨s.rx, ⟨_, _⟩, rfl⟩
  all_goals exact ⟨_, _, rfl⟩

/-- Reading a fed byte under its function row changes nothing of what runs. -/
theorem exec_atFunctionOffset (phase : RxState) (i : Instr) : exec (atFunctionOffset phase i) s = exec i s := by
  unfold atFunctionOffset
  split
  · rename_i b
    cases h : decodeFunctionByte b with
    | none => rfl
    | some j => simpa using exec_of_decodeFunctionByte s h
  · rfl

end

section
variable {s : State}

theorem step_of_empty (h : s.pending = []) : step s = .next s := by simp [step, h]

theorem step_of_decode {r : Request} {rest : List Request} {i : Instr} (hp : s.pending = r :: rest)
    (hd : decode s.rx.state r = .ok i) : step s = exec i (setPending rest s) := by simp [step, hp, hd]

theorem step_of_illegal {r : Request} {rest : List Request} {e : DecodeError} (hp : s.pending = r :: rest)
    (hd : decode s.rx.state r = .error e) :
    step s = .next (answerIllegalCommand (setPending rest s)) := by
  cases e; simp [step, hp, hd]

/-- Everything a step on a command can do: that command leaves the port, some receiver registers are written, one answer is
added, and nothing else changes. -/
theorem step_answers {r : Request} {rest : List Request} (hp : s.pending = r :: rest) :
    ∃ (rx : Receiver) (resp : Response),
      step s = .next (respond resp.status resp.data (setReceiver rx (setPending rest s))) := by
  cases hd : decode s.rx.state r with
  | ok i =>
    rw [step_of_decode hp hd]
    exact exec_answers _ i
  | error e => exact ⟨s.rx, ⟨.illegalCommand, .empty⟩, by rw [step_of_illegal hp hd]; rfl⟩

/-- A step on a command is `exec` of the command, whether or not the byte it feeds has a function row. -/
theorem step_of_decodeCommand {r : Request} {rest : List Request} {i : Instr} (hp : s.pending = r :: rest)
    (hd : decodeCommand r = .ok i) : step s = exec i (setPending rest s) := by
  rw [step_of_decode hp (i := atFunctionOffset s.rx.state i) (by simp [decode, hd]), exec_atFunctionOffset]

end

end Sys2Proof.Machine
end

