-- ==== Sys2Proof/Laws/PerInstr.lean ====
section
/-! SUPPORT. One family of statements about every instruction as syntax, one lemma per constructor: its encoding is a canonical
request (a defined command code, 30_encoding.md R71, and no operand lane filled that the command does not read, log 3). -/

/-- The encoding of an instruction is a canonical request. -/
def Sys2Proof.Laws.EncodedRequest.Statement (i : Sys2Proof.Instr) : Prop := (Sys2Proof.encode i).canonical = true

namespace Sys2Proof.Laws

theorem EncodedRequest.crc8 (data : List Byte) : EncodedRequest.Statement (.crc8 data) :=
  beq_self_eq_true _

theorem EncodedRequest.encode (func : Byte) (payload : List Byte) : EncodedRequest.Statement (.encode func payload) :=
  beq_self_eq_true _

theorem EncodedRequest.rgbEncode (pixels : List Pixel) : EncodedRequest.Statement (.rgbEncode pixels) :=
  beq_self_eq_true _

theorem EncodedRequest.rgbDecode (payload : List Byte) : EncodedRequest.Statement (.rgbDecode payload) :=
  beq_self_eq_true _

theorem EncodedRequest.rxFeed (b : Byte) : EncodedRequest.Statement (.rxFeed b) :=
  beq_self_eq_true _

theorem EncodedRequest.rxReset : EncodedRequest.Statement .rxReset :=
  beq_self_eq_true _

theorem EncodedRequest.rxState : EncodedRequest.Statement .rxState :=
  beq_self_eq_true _

theorem EncodedRequest.funcLed : EncodedRequest.Statement .funcLed :=
  beq_self_eq_true _

theorem EncodedRequest.funcBuzzer : EncodedRequest.Statement .funcBuzzer :=
  beq_self_eq_true _

theorem EncodedRequest.funcMotor : EncodedRequest.Statement .funcMotor :=
  beq_self_eq_true _

theorem EncodedRequest.funcPwmServo : EncodedRequest.Statement .funcPwmServo :=
  beq_self_eq_true _

theorem EncodedRequest.funcBusServo : EncodedRequest.Statement .funcBusServo :=
  beq_self_eq_true _

theorem EncodedRequest.funcKey : EncodedRequest.Statement .funcKey :=
  beq_self_eq_true _

theorem EncodedRequest.funcImu : EncodedRequest.Statement .funcImu :=
  beq_self_eq_true _

theorem EncodedRequest.funcGamepad : EncodedRequest.Statement .funcGamepad :=
  beq_self_eq_true _

theorem EncodedRequest.funcSbus : EncodedRequest.Statement .funcSbus :=
  beq_self_eq_true _

theorem EncodedRequest.funcOled : EncodedRequest.Statement .funcOled :=
  beq_self_eq_true _

theorem EncodedRequest.funcRgb : EncodedRequest.Statement .funcRgb :=
  beq_self_eq_true _

end Sys2Proof.Laws
end

