-- ==== Sys2Proof/Laws/Run.lean ====
section
/-! SUPPORT. Runs, one step at a time. -/

namespace Sys2Proof.Machine

@[simp] theorem run_zero (s : State) : run 0 s = .next s := rfl

theorem run_succ (n : Nat) (s : State) :
    run (n + 1) s = match step s with
      | .next t => run n t
      | .fault r => .fault r
      | .refused r => .refused r := by
  cases h : step s <;> simp [run, Host.Core.run, core, h]

theorem run_succ_of_step {n : Nat} {s t : State} (h : step s = .next t) : run (n + 1) s = run n t := by
  rw [run_succ, h]

/-- A run of `m + n` steps is a run of `m` steps and then one of `n`. -/
theorem run_add {m n : Nat} {s t : State} (h : run m s = .next t) : run (m + n) s = run n t := by
  induction m generalizing s with
  | zero => cases h; simp
  | succ m ih =>
    rw [Nat.add_right_comm, run_succ]
    rw [run_succ] at h
    split at h
    · exact ih h
    · cases h
    · cases h

@[simp] theorem bytesFed_nil : bytesFed [] = [] := rfl

@[simp] theorem bytesFed_append (x y : List Request) : bytesFed (x ++ y) = bytesFed x ++ bytesFed y :=
  List.filterMap_append

@[simp] theorem bytesFed_feedRequests (bs : List Byte) : bytesFed (bs.map feedRequest) = bs := by
  induction bs with
  | nil => rfl
  | cons b bs ih => simpa [bytesFed, feedRequest] using ih

/-- An instruction that feeds a byte runs as the receiver's step on it. -/
theorem exec_of_fedByte {i : Instr} {b : Byte} (h : fedByte i = some b) (s : State) : exec i s = .next (feedByte b s) := by
  cases i <;> cases h <;> rfl

/-- One step on a byte waiting at the port is the receiver's step on it. -/
theorem step_of_feedRequest {s : State} {b : Byte} {rest : List Request} (h : s.pending = feedRequest b :: rest) :
    step s = .next (feedByte b (setPending rest s)) := by
  rw [step_of_decodeCommand h (i := .rxFeed b) rfl, exec_rxFeed]

end Sys2Proof.Machine
end

