-- ==== Sys2Proof/Laws/Stream.lean ====
section
/-! SUPPORT. Streams of bytes: the receiver's registers and answers after a whole stream, and the runs that feed one. -/

namespace Sys2Proof.Machine

/-- The registers after a stream of bytes, and the answers, in order. -/
def feedAll (T : CrcTable) (rx : Receiver) : List Byte → Receiver × List Response
  | [] => (rx, [])
  | b :: bs =>
    let first := feed T rx b
    let others := feedAll T first.1 bs
    (others.1, first.2 :: others.2)

@[simp] theorem feedAll_nil (T : CrcTable) (rx : Receiver) : feedAll T rx [] = (rx, []) := rfl

theorem feedAll_cons (T : CrcTable) (rx : Receiver) (b : Byte) (bs : List Byte) :
    feedAll T rx (b :: bs) = ((feedAll T (feed T rx b).1 bs).1, (feed T rx b).2 :: (feedAll T (feed T rx b).1 bs).2) := rfl

theorem feedAll_append (T : CrcTable) (rx : Receiver) (x y : List Byte) :
    feedAll T rx (x ++ y) =
      ((feedAll T (feedAll T rx x).1 y).1, (feedAll T rx x).2 ++ (feedAll T (feedAll T rx x).1 y).2) := by
  induction x generalizing rx with
  | nil => rfl
  | cons b x ih => simp [feedAll_cons, ih]

theorem feedAll_length (T : CrcTable) (rx : Receiver) (bs : List Byte) :
    (feedAll T rx bs).2.length = bs.length := by
  induction bs generalizing rx with
  | nil => rfl
  | cons b bs ih => simp [feedAll_cons, ih]

/-- A run over bytes waiting at the port. -/
theorem run_of_feedRequests (bs : List Byte) (s : State) (rest : List Request)
    (hp : s.pending = bs.map feedRequest ++ rest) :
    run bs.length s = .next { s with
      rx := (feedAll s.crcTable s.rx bs).1, pending := rest,
      responses := s.responses ++ (feedAll s.crcTable s.rx bs).2 } := by
  induction bs generalizing s with
  | nil => cases s; simp_all
  | cons b bs ih =>
    rw [List.length_cons, run_succ_of_step (step_of_feedRequest hp), ih _ rfl]
    simp [feedByte, respond, setReceiver, setPending, feedAll_cons]

/-- The pseudo-command `RX_FEEDS`. -/
theorem rxFeeds_eq_feedAll (bs : List Byte) (s : State) :
    rxFeeds bs s = .next { s with
      rx := (feedAll s.crcTable s.rx bs).1, responses := s.responses ++ (feedAll s.crcTable s.rx bs).2 } := by
  unfold rxFeeds
  induction bs generalizing s with
  | nil => simp [runCommands]
  | cons b bs ih =>
    simp only [List.map_cons, runCommands, exec_rxFeed]
    rw [ih]
    simp [feedByte, respond, setReceiver, feedAll_cons]

end Sys2Proof.Machine
end

