-- ==== Sys2Proof/Machine/Assembly.lean ====
section
/-! DEFINITION. How commands and responses are written down (30_encoding.md R73). Nothing the block does depends on it. -/

namespace Sys2Proof.Machine

/-- One hexadecimal digit. -/
def hexDigit (n : Nat) : String :=
  (["0", "1", "2", "3", "4", "5", "6", "7", "8", "9", "A", "B", "C", "D", "E", "F"].getD (n % 16) "0")

/-- A byte as `0xAA`. -/
def writeByte (b : Byte) : String := "0x" ++ hexDigit (b.toNat / 16) ++ hexDigit b.toNat

/-- Elements between brackets. -/
def writeList (elements : List String) : String := "[" ++ String.intercalate ", " elements ++ "]"

/-- A byte list as `[0xAA, 0x55]`. -/
def writeBytes (bs : List Byte) : String := writeList (bs.map writeByte)

/-- A pixel as `(id, r, g, b)`. -/
def writePixel (p : Pixel) : String :=
  "(" ++ toString p.id ++ ", " ++ writeByte p.r ++ ", " ++ writeByte p.g ++ ", " ++ writeByte p.b ++ ")"

/-- A command as "its mnemonic followed by its operands". A function row is written as the feed of its byte, with the row's
name in the comment. -/
def writeInstr : Instr → String
  | .crc8 data => "CRC8 " ++ writeBytes data
  | .encode func payload => "ENCODE " ++ writeByte func ++ ", " ++ writeBytes payload
  | .rgbEncode pixels => "RGB_ENCODE " ++ writeList (pixels.map writePixel)
  | .rgbDecode payload => "RGB_DECODE " ++ writeBytes payload
  | .rxFeed b => "RX_FEED " ++ writeByte b
  | .rxReset => "RX_RESET"
  | .rxState => "RX_STATE"
  | .funcLed => "RX_FEED 0x01 ; FUNC_LED"
  | .funcBuzzer => "RX_FEED 0x02 ; FUNC_BUZZER"
  | .funcMotor => "RX_FEED 0x03 ; FUNC_MOTOR"
  | .funcPwmServo => "RX_FEED 0x04 ; FUNC_PWM_SERVO"
  | .funcBusServo => "RX_FEED 0x05 ; FUNC_BUS_SERVO"
  | .funcKey => "RX_FEED 0x06 ; FUNC_KEY"
  | .funcImu => "RX_FEED 0x07 ; FUNC_IMU"
  | .funcGamepad => "RX_FEED 0x08 ; FUNC_GAMEPAD"
  | .funcSbus => "RX_FEED 0x09 ; FUNC_SBUS"
  | .funcOled => "RX_FEED 0x0A ; FUNC_OLED"
  | .funcRgb => "RX_FEED 0x0B ; FUNC_RGB"

/-- The name of a status (60_exceptions.md R201). -/
def writeStatus : Status → String
  | .ok => "OK"
  | .invalidArgument => "INVALID_ARGUMENT"
  | .noFrame => "NO_FRAME"
  | .frameReady => "FRAME_READY"
  | .checksumMismatch => "CHECKSUM_MISMATCH"
  | .lengthError => "LENGTH_ERROR"
  | .illegalCommand => "ILLEGAL_COMMAND"

/-- The data of a response; a frame as its function byte and its payload. -/
def writeData : Data → String
  | .empty => "[]"
  | .bytes bs => writeBytes bs
  | .pixels ps => writeList (ps.map writePixel)
  | .frame f => writeByte f.function ++ ", " ++ writeBytes f.payload

/-- A response as `-> STATUS data`. -/
def writeResponse (r : Response) : String := "-> " ++ writeStatus r.status ++ " " ++ writeData r.data

end Sys2Proof.Machine
end

