-- ==== Sys2Proof/Tests/Slice0.lean ====
section
/-! SUPPORT. The model's own tests. Expected results are the spec's: 95_test_vectors.md (cited by vector id), or the rule cited.
Every checksum byte assumes the default table, which reset has (log 4). Then one witness for each statement with hypotheses. -/

namespace Sys2Proof.Tests

open Sys2Proof.Machine

/-- The block after reset, with these receiver registers. -/
def withRx (rx : Receiver) : State := { State.reset with rx := rx }

/-- The receiver in a state, its data registers as after reset. -/
def inState (st : RxState) : State := withRx { clearedReceiver with state := st }

/-- The block after reset with these bytes waiting at the port, each fed by RX_FEED. -/
def withStream (bytes : List Byte) : State := { State.reset with pending := bytes.map feedRequest }

/-- What a test looks at: the answers and the receiver's registers. -/
def observed (o : Host.Outcome State Fault Refusal) : Option (List Response × Receiver) := (nextOf o).map State.observation

/-- V-RX-12's and V-RX-14's start: AWAIT_LENGTH, 0B, 0, 0, [], 20. -/
def awaitingLength : Receiver := { clearedReceiver with state := .awaitLength, func := 0x0B, crc := 0x20 }

/-- V-RX-18's start: AWAIT_DATA, 03, 3, 3, [], B7. -/
def awaitingData : Receiver := { state := .awaitData, func := 0x03, len := 3, remaining := 3, buf := [], crc := 0xB7 }

/-- V-RX-19's start: AWAIT_CHECKSUM, 0B, 0, 0, [], 23. -/
def awaitingChecksum : Receiver := { clearedReceiver with state := .awaitChecksum, func := 0x0B, crc := 0x23 }

/-- The answer "no frame yet". -/
def noFrameYet : Response := { status := .noFrame, data := .empty }

/-- The answer INVALID_ARGUMENT. -/
def invalid : Response := { status := .invalidArgument, data := .empty }

/-- The bytes of V-ENC-6. -/
def frameEnc6 : List Byte := [0xAA, 0x55, 0x03, 0x03, 0x10, 0x20, 0x30, 0xF3]

/-- The frame of V-SRC-6. -/
def frameSrc6 : List Byte :=
  [0xAA, 0x55, 0x0B, 0x0A, 0x01, 0x02, 0x00, 0xFF, 0x00, 0x00, 0x01, 0x00, 0x00, 0xFF, 0xBD]

/-- So many zero bytes. -/
def zeros (n : Nat) : List Byte := List.replicate n 0

theorem zeros_length (n : Nat) : (zeros n).length = n := List.length_replicate

/-! ## WellFormed: an ill-formed term for each check -/

theorem test_wf_encode_251 : (Instr.encode 0x07 (zeros 251)).wellFormed = true := by
  simp only [Instr.wellFormed, zeros_length]; decide
theorem test_wf_encode_252 : (Instr.encode 0x07 (zeros 252)).wellFormed = false := by
  simp only [Instr.wellFormed, zeros_length]; decide
theorem test_wf_rgb_62_pixels : (Instr.rgbEncode (List.replicate 62 ⟨256, 0, 0, 0⟩)).wellFormed = true := by decide
theorem test_wf_rgb_63_pixels : (Instr.rgbEncode (List.replicate 63 ⟨1, 0, 0, 0⟩)).wellFormed = false := by decide
theorem test_wf_pixel_id_0 : Pixel.wellFormed ⟨0, 1, 2, 3⟩ = false := by decide
theorem test_wf_pixel_id_257 : Pixel.wellFormed ⟨257, 1, 2, 3⟩ = false := by decide
theorem test_wf_rgb_payload_short : rgbPayloadWellFormed [] = false ∧ rgbPayloadWellFormed [0x01] = false := by decide
theorem test_wf_rgb_payload_tag : rgbPayloadWellFormed [0x02, 0x00] = false := by decide
theorem test_wf_rgb_payload_count : rgbPayloadWellFormed ([0x01, 0x3F] ++ List.replicate 252 0) = false := by decide
theorem test_wf_rgb_payload_length : rgbPayloadWellFormed [0x01, 0x01, 0x05, 0x10, 0x20] = false ∧
    rgbPayloadWellFormed [0x01, 0x00, 0x00] = false := by decide
theorem test_canonical_undefined_code : Request.canonical { code := 0x08, operands := Operands.none } = false := by decide
theorem test_canonical_crc8_stray_byte : Request.canonical { code := 0x01, operands := ⟨1, [], []⟩ } = false := by decide
theorem test_canonical_encode_stray_pixel : Request.canonical { code := 0x02, operands := ⟨1, [2], [⟨1, 0, 0, 0⟩]⟩ } = false := by
  decide
theorem test_canonical_rgb_encode_stray_bytes : Request.canonical { code := 0x03, operands := ⟨0, [2], []⟩ } = false := by decide
theorem test_canonical_rgb_decode_stray_byte : Request.canonical { code := 0x04, operands := ⟨1, [2], []⟩ } = false := by decide
theorem test_canonical_rx_feed_stray_bytes : Request.canonical { code := 0x05, operands := ⟨1, [2], []⟩ } = false := by decide
theorem test_canonical_rx_reset_stray_byte : Request.canonical { code := 0x06, operands := ⟨1, [], []⟩ } = false := by decide
theorem test_canonical_rx_state_stray_byte : Request.canonical { code := 0x07, operands := ⟨1, [], []⟩ } = false := by decide

/-! ## Decoding: words written from 30_encoding.md R70 and R64 -/

theorem test_decode_crc8 : decode .awaitStart1 { code := 0b00000001, operands := ⟨0, [0x12, 0x34], []⟩ } =
    .ok (.crc8 [0x12, 0x34]) := by decide
theorem test_decode_encode : decode .awaitStart1 { code := 0b00000010, operands := ⟨0x0B, [0x01, 0x00], []⟩ } =
    .ok (.encode 0x0B [0x01, 0x00]) := by decide
theorem test_decode_rgb_encode : decode .awaitStart1 { code := 0b00000011, operands := ⟨0, [], [⟨1, 255, 0, 0⟩]⟩ } =
    .ok (.rgbEncode [⟨1, 255, 0, 0⟩]) := by decide
theorem test_decode_rgb_decode : decode .awaitStart1 { code := 0b00000100, operands := ⟨0, [0x01, 0x00], []⟩ } =
    .ok (.rgbDecode [0x01, 0x00]) := by decide
theorem test_decode_rx_feed : decode .awaitStart1 { code := 0b00000101, operands := ⟨0xAA, [], []⟩ } = .ok (.rxFeed 0xAA) := by
  decide
theorem test_decode_rx_reset : decode .awaitData { code := 0b00000110, operands := Operands.none } = .ok .rxReset := by decide
theorem test_decode_rx_state : decode .awaitFunction { code := 0b00000111, operands := Operands.none } = .ok .rxState := by decide
theorem test_decode_illegal_08 : decode .awaitStart1 { code := 0b00001000, operands := Operands.none } =
    .error (.illegalCommand 0x08) := by decide
theorem test_decode_func_led : decode .awaitFunction { code := 0b00000101, operands := ⟨0b00000001, [], []⟩ } = .ok .funcLed := by
  decide
theorem test_decode_func_buzzer : decode .awaitFunction { code := 0b00000101, operands := ⟨0b00000010, [], []⟩ } = .ok .funcBuzzer := by
  decide
theorem test_decode_func_motor : decode .awaitFunction { code := 0b00000101, operands := ⟨0b00000011, [], []⟩ } = .ok .funcMotor := by
  decide
theorem test_decode_func_pwmservo : decode .awaitFunction { code := 0b00000101, operands := ⟨0b00000100, [], []⟩ } = .ok .funcPwmServo := by
  decide
theorem test_decode_func_busservo : decode .awaitFunction { code := 0b00000101, operands := ⟨0b00000101, [], []⟩ } = .ok .funcBusServo := by
  decide
theorem test_decode_func_key : decode .awaitFunction { code := 0b00000101, operands := ⟨0b00000110, [], []⟩ } = .ok .funcKey := by
  decide
theorem test_decode_func_imu : decode .awaitFunction { code := 0b00000101, operands := ⟨0b00000111, [], []⟩ } = .ok .funcImu := by
  decide
theorem test_decode_func_gamepad : decode .awaitFunction { code := 0b00000101, operands := ⟨0b00001000, [], []⟩ } = .ok .funcGamepad := by
  decide
theorem test_decode_func_sbus : decode .awaitFunction { code := 0b00000101, operands := ⟨0b00001001, [], []⟩ } = .ok .funcSbus := by
  decide
theorem test_decode_func_oled : decode .awaitFunction { code := 0b00000101, operands := ⟨0b00001010, [], []⟩ } = .ok .funcOled := by
  decide
theorem test_decode_func_rgb : decode .awaitFunction { code := 0b00000101, operands := ⟨0b00001011, [], []⟩ } = .ok .funcRgb := by
  decide
theorem test_decode_reserved_function : decode .awaitFunction { code := 0b00000101, operands := ⟨0x0C, [], []⟩ } =
    .ok (.rxFeed 0x0C) := by decide
theorem test_table_word_is_run : observed (step (State.reset.withFetchWord 8 0x07)) =
    some ([{ status := .ok, data := .bytes [0x00] }], clearedReceiver) := by decide
theorem test_table_function_word_is_run : observed (step (State.reset.withFetchWord 8 0x0B)) =
    some ([noFrameYet], awaitingLength) := by decide

/-! ## One step, from the vectors -/

theorem test_V_CRC_8 : observed (exec (.crc8 [0x31, 0x32, 0x33, 0x34, 0x35, 0x36, 0x37, 0x38, 0x39]) State.reset) =
    some ([{ status := .ok, data := .bytes [0xA1] }], clearedReceiver) := by decide
theorem test_V_CRC_12 : observed (exec (.crc8 [1, 2, 3, 4, 5, 6, 7, 8]) State.reset) =
    some ([{ status := .ok, data := .bytes [0x83] }], clearedReceiver) := by decide
theorem test_V_ENC_12 : observed (exec (.encode 0x0B [0x01, 0x02, 0x00, 0xFF, 0x00, 0x00, 0x01, 0x00, 0x00, 0xFF]) State.reset) =
    some ([{ status := .ok, data := .bytes frameSrc6 }], clearedReceiver) := by
  decide
theorem test_V_ENC_10 : observed (exec (.encode 0x07 (zeros 252)) State.reset) = some ([invalid], clearedReceiver) := by
  simp only [exec, execEncode, encodeRefuses, zeros_length]; decide
theorem test_V_RGBE_4 : observed (exec (.rgbEncode [⟨5, 1, 2, 3⟩, ⟨5, 4, 5, 6⟩]) State.reset) =
    some ([{ status := .ok, data := .bytes [0x01, 0x02, 0x04, 0x01, 0x02, 0x03, 0x04, 0x04, 0x05, 0x06] }], clearedReceiver) := by
  decide
theorem test_V_RGBE_8 : observed (exec (.rgbEncode [⟨257, 1, 2, 3⟩]) State.reset) = some ([invalid], clearedReceiver) := by
  decide
theorem test_V_RGBD_4 : observed (exec (.rgbDecode [0x01, 0x01, 0xFF, 0x00, 0x00, 0x00]) State.reset) =
    some ([{ status := .ok, data := .pixels [⟨256, 0, 0, 0⟩] }], clearedReceiver) := by decide
theorem test_V_RGBD_9 : observed (exec (.rgbDecode [0x01, 0x00, 0x00]) State.reset) = some ([invalid], clearedReceiver) := by
  decide
theorem test_V_RX_5 : observed (exec (.rxFeed 0xAA) (inState .awaitStart2)) =
    some ([noFrameYet], { clearedReceiver with state := .awaitStart2 }) := by decide
theorem test_V_RX_18 : observed (exec (.rxFeed 0xAA) (withRx awaitingData)) =
    some ([noFrameYet], { awaitingData with remaining := 2, buf := [0xAA], crc := 0x60 }) := by decide
theorem test_V_RX_21 : observed (exec (.rxFeed 0xAA) (withRx awaitingChecksum)) =
    some ([{ status := .checksumMismatch, data := .empty }], clearedReceiver) := by decide
theorem test_V_RST_2 : observed (exec .rxReset (withRx
      { state := .awaitData, func := 0x0B, len := 5, remaining := 3, buf := [0x01, 0x02], crc := 0xD9 })) =
    some ([{ status := .ok, data := .empty }], clearedReceiver) := by decide
theorem test_V_STA_5 : observed (exec .rxState (withRx awaitingData)) =
    some ([{ status := .ok, data := .bytes [0x04] }], awaitingData) := by decide
theorem test_V_RX_8_func_rgb : observed (exec .funcRgb (inState .awaitFunction)) = some ([noFrameYet], awaitingLength) := by
  decide
theorem test_func_led_at_offset_two : (observed (exec .funcLed (inState .awaitFunction))).map (fun o => (o.2.state, o.2.func, o.2.crc)) =
    some (.awaitLength, 0x01, 0x5E) := by decide
theorem test_func_buzzer_at_offset_two : (observed (exec .funcBuzzer (inState .awaitFunction))).map (fun o => (o.2.state, o.2.func, o.2.crc)) =
    some (.awaitLength, 0x02, 0xBC) := by decide
theorem test_func_motor_at_offset_two : (observed (exec .funcMotor (inState .awaitFunction))).map (fun o => (o.2.state, o.2.func, o.2.crc)) =
    some (.awaitLength, 0x03, 0xE2) := by decide
theorem test_func_pwmservo_at_offset_two : (observed (exec .funcPwmServo (inState .awaitFunction))).map (fun o => (o.2.state, o.2.func, o.2.crc)) =
    some (.awaitLength, 0x04, 0x61) := by decide
theorem test_func_busservo_at_offset_two : (observed (exec .funcBusServo (inState .awaitFunction))).map (fun o => (o.2.state, o.2.func, o.2.crc)) =
    some (.awaitLength, 0x05, 0x3F) := by decide
theorem test_func_key_at_offset_two : (observed (exec .funcKey (inState .awaitFunction))).map (fun o => (o.2.state, o.2.func, o.2.crc)) =
    some (.awaitLength, 0x06, 0xDD) := by decide
theorem test_func_imu_at_offset_two : (observed (exec .funcImu (inState .awaitFunction))).map (fun o => (o.2.state, o.2.func, o.2.crc)) =
    some (.awaitLength, 0x07, 0x83) := by decide
theorem test_func_gamepad_at_offset_two : (observed (exec .funcGamepad (inState .awaitFunction))).map (fun o => (o.2.state, o.2.func, o.2.crc)) =
    some (.awaitLength, 0x08, 0xC2) := by decide
theorem test_func_sbus_at_offset_two : (observed (exec .funcSbus (inState .awaitFunction))).map (fun o => (o.2.state, o.2.func, o.2.crc)) =
    some (.awaitLength, 0x09, 0x9C) := by decide
theorem test_func_oled_at_offset_two : (observed (exec .funcOled (inState .awaitFunction))).map (fun o => (o.2.state, o.2.func, o.2.crc)) =
    some (.awaitLength, 0x0A, 0x7E) := by decide
theorem test_func_led_is_no_start : observed (exec .funcLed State.reset) = some ([noFrameYet], clearedReceiver) := by decide
theorem test_V_ILL_2 : observed (step { State.reset with pending := [{ code := 0x08, operands := ⟨1, [2], []⟩ }] }) =
    some ([{ status := .illegalCommand, data := .empty }], clearedReceiver) := by decide
theorem test_classify_bounds : classify 0x00 = .unknown ∧ classify 0x0B = .rgb ∧ classify 0x0C = .unknown ∧
    classify 0xFF = .unknown := by decide
theorem test_frame_length : frameLength? frameEnc6 = some 8 ∧ frameLength? [0xAA, 0x55, 0x01, 0xFC] = none := by decide
theorem test_frame_fields : frameFields? frameEnc6 = some (⟨0x03, [0x10, 0x20, 0x30]⟩, 0xF3) := by decide
theorem test_frame_valid : frameValid dallasMaximTable frameEnc6 = true ∧
    frameValid dallasMaximTable [0xAA, 0x55, 0x03, 0x03, 0x10, 0x21, 0x30, 0xF3] = false := by decide
theorem test_rgb_frame_V_SRC_6 : (observed (rgbFrame [⟨1, 255, 0, 0⟩, ⟨2, 0, 0, 255⟩] State.reset)).map (fun o => o.1.getLast?) =
    some (some { status := .ok, data := .bytes frameSrc6 }) := by decide
theorem test_send_and_receive : (observed (sendAndReceive 0x01 [0x47] State.reset)).map (fun o => (o.1.getLast?, o.2)) =
    some (some { status := .frameReady, data := .frame ⟨0x01, [0x47]⟩ }, clearedReceiver) := by decide
theorem test_write_command : writeInstr (.encode 0x0B [0xAA, 0x55]) = "ENCODE 0x0B, [0xAA, 0x55]" := by decide
theorem test_write_response : writeResponse { status := .ok, data := .bytes [0x23] } = "-> OK [0x23]" := by decide

/-! ## Witnesses: each statement's hypotheses met together, each of its clauses at a boundary -/

theorem witness_CommandCodesDecodeToTheirRows : RxState.awaitStart1 ≠ .awaitFunction := by decide
theorem witness_FunctionBytesDecodeToTheirRows :
    (∃ o : Operands, o.byte = 0x01) ∧ (∃ o : Operands, o.byte = 0x0B) ∧ (∃ o : Operands, o.byte = 0x00) ∧
      ∃ o : Operands, 0x0C ≤ o.byte.toNat :=
  ⟨⟨⟨0x01, [], []⟩, rfl⟩, ⟨⟨0x0B, [], []⟩, rfl⟩, ⟨⟨0x00, [], []⟩, rfl⟩, ⟨⟨0x0C, [], []⟩, by decide⟩⟩
theorem witness_EncodeOfDecode : ∃ (r : Request) (i : Instr), r.canonical = true ∧ decode .awaitFunction r = .ok i :=
  ⟨feedRequest 0x0B, .funcRgb, by decide⟩
theorem witness_StepRunsTheDecodedInstruction : ∃ (s : State) (r : Request) (rest : List Request) (i : Instr),
    s.pending = r :: rest ∧ decode s.rx.state r = .ok i :=
  ⟨withStream [0xAA], feedRequest 0xAA, [], .rxFeed 0xAA, rfl, rfl⟩
theorem witness_BlockWaitsWithoutCommand : State.reset.pending = [] := rfl
theorem witness_UndefinedCodeAnswersIllegalCommand :
    (∃ r : Request, r.code = 0x00) ∧ (∃ r : Request, r.code.toNat = 0x08) ∧ ∃ r : Request, r.code.toNat = 0xFF :=
  ⟨⟨⟨0x00, Operands.none⟩, rfl⟩, ⟨⟨0x08, Operands.none⟩, rfl⟩, ⟨⟨0xFF, Operands.none⟩, rfl⟩⟩
theorem witness_TableWordIsRunByTheNextStep : decodeTableWord 8 0x01 = some (.crc8 []) ∧ decodeTableWord 8 0x07 = some .rxState ∧
    decodeTableWord 8 0x08 = some .funcGamepad ∧ decodeTableWord 8 0x0B = some .funcRgb := by decide
theorem witness_DallasChecksumIsLinear : ∃ x y : List Byte, x.length = y.length ∧ x ≠ y := ⟨[0x12, 0x34], [0x56, 0x78], by decide⟩
theorem witness_DallasChecksumSeesEverySingleBit :
    (∃ (data : List Byte) (i : Nat), i < data.length ∧ data.length = 1) ∧
      ∃ (data : List Byte) (i : Nat), i < data.length ∧ data.length = 253 :=
  ⟨⟨[0], 0, by decide⟩, ⟨zeros 253, 252, by rw [zeros_length]; decide⟩⟩
theorem witness_EncodeBuildsTheFrame :
    (∃ p : List Byte, 251 < p.length) ∧ (∃ p : List Byte, p.length ≤ 251 ∧ p.length = 251) :=
  ⟨⟨zeros 252, by rw [zeros_length]; decide⟩, ⟨zeros 251, by rw [zeros_length]; decide⟩⟩
theorem witness_EncodeWorkedExample : State.reset.crcTable = dallasMaximTable := rfl
theorem witness_EncodedFrameLayout : ([] : List Byte).length ≤ 251 ∧ (zeros 251).length ≤ 251 := by
  rw [zeros_length]; decide
theorem witness_LegalFrameFields : ∃ (fr : List Byte) (L : Nat), 5 ≤ fr.length ∧ fr[0]? = some 0xAA ∧ fr[1]? = some 0x55 ∧
    L = (fr.getD 3 0#8).toNat ∧ L ≤ 251 ∧ fr.length = L + 5 := ⟨frameEnc6, 3, by decide⟩
theorem witness_LegalFrameFields_largest : ∃ (fr : List Byte) (L : Nat), 5 ≤ fr.length ∧ fr[0]? = some 0xAA ∧ fr[1]? = some 0x55 ∧
    L = (fr.getD 3 0#8).toNat ∧ L ≤ 251 ∧ fr.length = L + 5 ∧ L = 251 :=
  ⟨[0xAA, 0x55, 0x07, 0xFB] ++ zeros 252, 251, by rw [List.length_append, zeros_length]; decide⟩
theorem witness_ValidFramesAreTheEncodersFrames : frameValid dallasMaximTable frameEnc6 = true := by decide
theorem witness_DallasFrameFoldsToZero : [0x10, 0x20, (0x30 : Byte)].length ≤ 251 := by decide
theorem witness_RgbEncodeBuildsThePayload_refused :
    (∃ px : List Pixel, 62 < px.length) ∧ (∃ px : List Pixel, ∃ p ∈ px, p.id < 1) ∧ (∃ px : List Pixel, ∃ p ∈ px, 256 < p.id) :=
  ⟨⟨List.replicate 63 ⟨1, 0, 0, 0⟩, by simp⟩, ⟨[⟨0, 0, 0, 0⟩], by simp⟩, ⟨[⟨257, 0, 0, 0⟩], by simp⟩⟩
theorem witness_RgbEncodeBuildsThePayload_accepted :
    ∃ px : List Pixel, px.length ≤ 62 ∧ (∀ p ∈ px, 1 ≤ p.id ∧ p.id ≤ 256) ∧ px.length = 62 ∧ ∃ p ∈ px, p.id = 256 :=
  ⟨List.replicate 62 ⟨256, 0, 0, 0⟩, by simp, by intro p hp; simp at hp; simp [hp], by simp, ⟨256, 0, 0, 0⟩, by simp, rfl⟩
theorem witness_RgbDecodeReadsThePixels_refused :
    ([0x01] : List Byte).length < 2 ∧ ([0x02, 0x00] : List Byte).getD 0 0#8 ≠ 0x01#8 ∧
      62 < (([0x01, 0x3F] : List Byte).getD 1 0#8).toNat ∧
      ([0x01, 0x00, 0x00] : List Byte).length ≠ 2 + 4 * (([0x01, 0x00, 0x00] : List Byte).getD 1 0#8).toNat := by decide
theorem witness_RgbDecodeReadsThePixels_accepted : ∃ (p : List Byte) (n : Nat), n = (p.getD 1 0#8).toNat ∧
    p.getD 0 0#8 = 0x01#8 ∧ n ≤ 62 ∧ p.length = 2 + 4 * n ∧ n = 62 :=
  ⟨[0x01, 0x3E] ++ zeros 248, 62, by rw [List.length_append, zeros_length]; decide⟩
theorem witness_RgbRoundTrip_encoded : exec (.rgbEncode [⟨6, 0x10, 0x20, 0x30⟩]) State.reset = .next { State.reset with
    responses := State.reset.responses ++ [{ status := .ok, data := .bytes [0x01, 0x01, 0x05, 0x10, 0x20, 0x30] }] } := rfl
theorem witness_RgbRoundTrip_decoded : exec (.rgbDecode [0x01, 0x01, 0x05, 0x10, 0x20, 0x30]) State.reset = .next { State.reset with
    responses := State.reset.responses ++ [{ status := .ok, data := .pixels [⟨6, 0x10, 0x20, 0x30⟩] }] } := rfl
theorem witness_RgbFrameOfAcceptedPixels : (Instr.rgbEncode [⟨1, 255, 0, 0⟩]).wellFormed = true ∧
    (Instr.rgbEncode [⟨0, 255, 0, 0⟩]).wellFormed = false := by decide
theorem witness_FeedInAwaitStart1 : (inState .awaitStart1).rx.state = .awaitStart1 := rfl
theorem witness_FeedInAwaitStart2 : (inState .awaitStart2).rx.state = .awaitStart2 := rfl
theorem witness_FeedInAwaitFunction : (inState .awaitFunction).rx.state = .awaitFunction := rfl
theorem witness_FunctionRowsAreTakenAtOffsetTwo : (inState .awaitFunction).rx.state = .awaitFunction := rfl
theorem witness_FeedInAwaitLength : (withRx awaitingLength).rx.state = .awaitLength ∧ (0x00#8).toNat ≤ 251 ∧
    (0xFB#8).toNat ≤ 251 := by decide
theorem witness_LengthErrorDiscardsTheFrame : (withRx awaitingLength).rx.state = .awaitLength ∧ 252 ≤ (0xFC#8).toNat := by decide
theorem witness_FeedInAwaitData : (withRx awaitingData).Inv ∧ (withRx awaitingData).rx.state = .awaitData := by
  refine ⟨?_, rfl⟩
  show 1 ≤ _ ∧ _ ≤ 251 ∧ 1 ≤ _ ∧ _ ≤ _ ∧ _ = _ ∧ _ = _
  decide
theorem witness_MatchingChecksumDeliversTheFrame : (withRx awaitingChecksum).rx.state = .awaitChecksum := rfl
theorem witness_ChecksumMismatchDiscardsTheFrame : (withRx awaitingChecksum).rx.state = .awaitChecksum ∧
    0x24#8 ≠ (withRx awaitingChecksum).rx.crc := by decide
theorem witness_RxStateAnswersTheStateCode : (inState .awaitStart1).rx.state = .awaitStart1 ∧
    (inState .awaitChecksum).rx.state = .awaitChecksum := ⟨rfl, rfl⟩
theorem witness_StepKeepsTheReceiverInvariant : State.reset.Inv ∧ ∃ t, step State.reset = .next t :=
  ⟨⟨rfl, rfl, rfl, rfl, rfl⟩, _, rfl⟩
theorem witness_CrcTableIsNeverWritten : ∃ t, exec .rxReset State.reset = .next t := ⟨_, rfl⟩
theorem witness_EveryCommandAnswersExactlyOnce : (withStream [0xAA]).pending = feedRequest 0xAA :: [] := rfl
theorem witness_ErrorsArePrecise_illegal : ∃ (s t : State) (r : Request) (rest : List Request) (resp : Response),
    s.pending = r :: rest ∧ step s = .next t ∧ t.responses = s.responses ++ [resp] ∧ resp.status = .illegalCommand :=
  ⟨{ State.reset with pending := [⟨0x08, Operands.none⟩] }, _, _, _, ⟨.illegalCommand, .empty⟩, rfl, rfl, rfl, rfl⟩
theorem witness_ErrorsArePrecise_invalid : ∃ (s t : State) (r : Request) (rest : List Request) (resp : Response),
    s.pending = r :: rest ∧ step s = .next t ∧ t.responses = s.responses ++ [resp] ∧ resp.status = .invalidArgument :=
  ⟨{ State.reset with pending := [encode (.rgbDecode [])] }, _, _, _, ⟨.invalidArgument, .empty⟩, rfl, rfl, rfl, rfl⟩
theorem witness_ErrorsArePrecise_mismatch : ∃ (s t : State) (r : Request) (rest : List Request) (resp : Response),
    s.pending = r :: rest ∧ step s = .next t ∧ t.responses = s.responses ++ [resp] ∧ resp.status = .checksumMismatch :=
  ⟨{ withRx awaitingChecksum with pending := [feedRequest 0x24] }, _, _, _, ⟨.checksumMismatch, .empty⟩, rfl, rfl, rfl, rfl⟩
theorem witness_ErrorsArePrecise_length : ∃ (s t : State) (r : Request) (rest : List Request) (resp : Response),
    s.pending = r :: rest ∧ step s = .next t ∧ t.responses = s.responses ++ [resp] ∧ resp.status = .lengthError :=
  ⟨{ withRx awaitingLength with pending := [feedRequest 0xFC] }, _, _, _, ⟨.lengthError, .empty⟩, rfl, rfl, rfl, rfl⟩
theorem witness_CodecUnitsArePure : State.reset.crcTable = dallasMaximTable ∧ ∃ data, Instr.crc8 [] = .crc8 data :=
  ⟨rfl, [], rfl⟩
theorem witness_OnlyFeedAndResetChangeTheReceiver : ∃ (s t : State) (r : Request) (rest : List Request),
    s.pending = r :: rest ∧ r.code ≠ 0x05#8 ∧ r.code ≠ 0x06#8 ∧ step s = .next t :=
  ⟨{ withRx awaitingData with pending := [encode (.crc8 [1])] }, _, _, _, rfl, by decide, by decide, rfl⟩
theorem witness_ClassifyEveryByte : 0x0C ≤ (0x0C#8).toNat ∧ 0x0C ≤ (0xFF#8).toNat := by decide
theorem witness_FrameRoundTrip : ∃ s : State, [0x10, 0x20, (0x30 : Byte)].length ≤ 251 ∧ s.rx.state = .awaitStart1 ∧
    s.pending = (frameBytes s.crcTable 0x03 [0x10, 0x20, 0x30]).map feedRequest ++ [] :=
  ⟨withStream (frameBytes dallasMaximTable 0x03 [0x10, 0x20, 0x30]), by decide, rfl, (List.append_nil _).symm⟩
theorem witness_FramesAreDeliveredInFeedOrder : ∃ s : State,
    (∀ f ∈ [(⟨0x01, [0x47]⟩ : Frame), ⟨0x01, [0x78]⟩], f.payload.length ≤ 251) ∧ s.rx.state = .awaitStart1 ∧
    s.pending = ([(⟨0x01, [0x47]⟩ : Frame), ⟨0x01, [0x78]⟩].flatMap
      (fun f => frameBytes s.crcTable f.function f.payload)).map feedRequest ++ [] :=
  ⟨withStream ([(⟨0x01, [0x47]⟩ : Frame), ⟨0x01, [0x78]⟩].flatMap
    (fun f => frameBytes dallasMaximTable f.function f.payload)), by decide, rfl, (List.append_nil _).symm⟩
theorem witness_SendAndReceiveLoopsBack : ([0x47] : List Byte).length ≤ 251 ∧ State.reset.rx.state = .awaitStart1 ∧
    251 < (zeros 252).length := by rw [zeros_length]; decide
/-- The stream of `SingleBitCorruptionIsCaught`: V-ENC-6's frame with the lowest bit of byte `i` flipped, then V-ENC-1's. -/
def corrupted (i : Nat) : List Byte :=
  (frameBytes dallasMaximTable 0x03 [0x10, 0x20, 0x30]).set i
    ((frameBytes dallasMaximTable 0x03 [0x10, 0x20, 0x30]).getD i 0#8 ^^^ 1#8 <<< (0 : Fin 8).val) ++
    frameBytes dallasMaximTable 0x0B []

/-- The function byte (2), the first payload byte (4), the last one (6) and the checksum byte (7). -/
theorem witness_SingleBitCorruptionIsCaught : ∀ i ∈ [2, 4, 6, 7], ∃ s : State, s.crcTable = dallasMaximTable ∧
    [0x10, 0x20, (0x30 : Byte)].length ≤ 251 ∧ ([] : List Byte).length ≤ 251 ∧ s.rx.state = .awaitStart1 ∧ (i = 2 ∨ 4 ≤ i) ∧
    i < [0x10, 0x20, (0x30 : Byte)].length + 5 ∧ s.pending = (corrupted i).map feedRequest ++ [] :=
  fun i hi => ⟨withStream (corrupted i), rfl, by decide, by decide, rfl, (by decide : ∀ i ∈ [2, 4, 6, 7], i = 2 ∨ 4 ≤ i) i hi,
    (by decide : ∀ i ∈ [2, 4, 6, 7], i < 8) i hi, (List.append_nil _).symm⟩
theorem witness_PeerWithAnotherTable : ∃ (s : State) (peer : CrcTable), peer ≠ s.crcTable ∧ ([] : List Byte).length ≤ 251 ∧
    s.rx.state = .awaitStart1 ∧ s.pending = (frameBytes peer 0x0B []).map feedRequest ++ [] :=
  ⟨withStream (frameBytes (Vector.replicate 256 0) 0x0B []), Vector.replicate 256 0,
    fun h => absurd (congrArg (fun T => tableEntry T 1) h) (by decide), by decide, rfl,
    (List.append_nil _).symm⟩
theorem witness_FieldStatesRecoverWithin254Bytes : ∃ (s : State) (bytes : List Byte), s.Inv ∧ s.rx.state ≠ .awaitStart1 ∧
    s.rx.state ≠ .awaitStart2 ∧ bytes.length = 254 :=
  ⟨inState .awaitFunction, zeros 254, ⟨rfl, rfl, rfl, rfl, rfl⟩, by decide, by decide, zeros_length 254⟩
theorem witness_StartPairEndsTheScan : (inState .awaitStart1).rx.state = .awaitStart1 ∧
    (inState .awaitStart2).rx.state = .awaitStart2 := ⟨rfl, rfl⟩
theorem witness_DataRegistersAreUnobservableAtStart : ∃ (s : State) (rx : Receiver), s.rx.state = .awaitStart1 ∧
    rx.state = .awaitStart1 ∧ rx ≠ s.rx :=
  ⟨State.reset, { clearedReceiver with func := 1 }, rfl, rfl, by decide⟩
/-- A frame, a command in between, and a foreign byte in front: the frame is delivered by the last command (V-ENC-1's bytes). -/
theorem witness_DeliveredFramesWereReceivedWhole : ∃ s t u : State, s.rx.state = .awaitStart1 ∧ run 6 s = .next t ∧
    step t = .next u ∧ u.responses = t.responses ++ [{ status := .frameReady, data := .frame ⟨0x0B, []⟩ }] :=
  ⟨{ State.reset with pending := [0x00, 0xAA, 0x55, 0x0B].map feedRequest ++ encode .rxState :: [0x00, 0x23].map feedRequest },
    _, _, rfl, rfl, rfl, rfl⟩
/-- Both sides of `FramesComeInTheOrderOfTheirChecksumBytes` occur: command 0 delivers a frame, or another byte there does not. -/
theorem witness_FramesComeInTheOrderOfTheirChecksumBytes :
    (withRx awaitingChecksum).rx.state = .awaitChecksum ∧ 0x23#8 = (withRx awaitingChecksum).rx.crc ∧
      0x24#8 ≠ (withRx awaitingChecksum).rx.crc := by decide
/-- `RunAnswersEveryCommandInOrder` at `k = 0`: a command that decodes, and one that does not. -/
theorem witness_RunAnswersEveryCommandInOrder :
    (withStream [0xAA]).pending[0]? = some (feedRequest 0xAA) ∧ decode .awaitStart1 (feedRequest 0xAA) = .ok (.rxFeed 0xAA) ∧
      decode .awaitStart1 ⟨0x08, Operands.none⟩ = .error (.illegalCommand 0x08) := by decide

end Sys2Proof.Tests
end

/-! # The block's state: what a step keeps, and what a host can tell apart (10_state.md)

The layer first: the kinds of instruction and what each does, for every state at once. After it the receiver's invariant (R24),
the registers that are live in each receiver state (R31), and the statements of the family. -/

namespace Sys2Proof.Machine

/-! ## The kinds of instruction -/

/-- The commands of the CRC8 generator, the frame encoder and the RGB formatter (10_state.md R20). -/
def IsCodec (i : Instr) : Prop :=
  (∃ data, i = .crc8 data) ∨ (∃ func payload, i = .encode func payload) ∨ (∃ pixels, i = .rgbEncode pixels) ∨
    (∃ payload, i = .rgbDecode payload)

/-- Every instruction is a codec's, or `RX_STATE`, or `RX_RESET`, or feeds a byte. -/
theorem isCodec_or_receiver (i : Instr) :
    IsCodec i ∨ i = .rxState ∨ i = .rxReset ∨ ∃ b, fedByte i = some b := by
  cases i
  case crc8 data => exact .inl (.inl ⟨data, rfl⟩)
  case encode func payload => exact .inl (.inr (.inl ⟨func, payload, rfl⟩))
  case rgbEncode pixels => exact .inl (.inr (.inr (.inl ⟨pixels, rfl⟩)))
  case rgbDecode payload => exact .inl (.inr (.inr (.inr ⟨payload, rfl⟩)))
  case rxState => exact .inr (.inl rfl)
  case rxReset => exact .inr (.inr (.inl rfl))
  all_goals exact .inr (.inr (.inr ⟨_, rfl⟩))

/-- A codec's answer is fixed by its operands and the table. -/
theorem exec_of_isCodec {i : Instr} (hi : IsCodec i) (T : CrcTable) :
    ∃ resp : Response, ∀ s : State, s.crcTable = T → exec i s = .next (respond resp.status resp.data s) := by
  obtain ⟨data, rfl⟩ | ⟨func, payload, rfl⟩ | ⟨pixels, rfl⟩ | ⟨payload, rfl⟩ := hi
  · exact ⟨⟨.ok, .bytes [crc8 T data]⟩, fun s hs => hs ▸ exec_crc8 s data⟩
  · by_cases h : encodeRefuses payload = true
    · exact ⟨⟨.invalidArgument, .empty⟩, fun s _ => by rw [exec_encode, if_pos h]; rfl⟩
    · exact ⟨⟨.ok, .bytes (frameBytes T func payload)⟩, fun s hs => by rw [exec_encode, if_neg h, hs]⟩
  · by_cases h : rgbEncodeRefuses pixels = true
    · exact ⟨⟨.invalidArgument, .empty⟩, fun s _ => by rw [exec_rgbEncode, if_pos h]; rfl⟩
    · exact ⟨⟨.ok, .bytes (rgbPayload pixels)⟩, fun s _ => by rw [exec_rgbEncode, if_neg h]⟩
  · by_cases h : rgbDecodeRefuses payload = true
    · exact ⟨⟨.invalidArgument, .empty⟩, fun s _ => by rw [exec_rgbDecode, if_pos h]; rfl⟩
    · exact ⟨⟨.ok, .pixels (readPixels (payload.drop 2))⟩, fun s _ => by rw [exec_rgbDecode, if_neg h]⟩

/-! ## What an instruction and a step do to the table and the receiver -/

theorem exec_crcTable {i : Instr} {s t : State} (h : exec i s = .next t) : t.crcTable = s.crcTable := by
  obtain ⟨rx, resp, he⟩ := exec_answers s i
  cases he.symm.trans h
  rfl

theorem step_crcTable {s t : State} (h : step s = .next t) : t.crcTable = s.crcTable := by
  cases hp : s.pending with
  | nil => cases (step_of_empty hp).symm.trans h; rfl
  | cons r rest =>
    obtain ⟨rx, resp, hs⟩ := step_answers hp
    cases hs.symm.trans h
    rfl

/-- What an instruction makes of the receiver: nothing, `rx_clear()`, or the receiver's step on one byte. -/
theorem exec_rx_cases {i : Instr} {s t : State} (h : exec i s = .next t) :
    t.rx = s.rx ∨ t.rx = clearedReceiver ∨ ∃ b, t.rx = (feed s.crcTable s.rx b).1 := by
  obtain hi | rfl | rfl | ⟨b, hb⟩ := isCodec_or_receiver i
  · obtain ⟨resp, hr⟩ := exec_of_isCodec hi s.crcTable
    cases (hr s rfl).symm.trans h
    exact .inl rfl
  · cases h
    exact .inl rfl
  · cases h
    exact .inr (.inl rfl)
  · cases (exec_of_fedByte hb s).symm.trans h
    exact .inr (.inr ⟨b, rfl⟩)

/-- What a step makes of the receiver, on any command or none. -/
theorem step_rx_cases {s t : State} (h : step s = .next t) :
    t.rx = s.rx ∨ t.rx = clearedReceiver ∨ ∃ b, t.rx = (feed s.crcTable s.rx b).1 := by
  cases hp : s.pending with
  | nil => cases (step_of_empty hp).symm.trans h; exact .inl rfl
  | cons r rest =>
    cases hd : decode s.rx.state r with
    | ok i => exact exec_rx_cases (s := setPending rest s) ((step_of_decode hp hd).symm.trans h)
    | error e => cases (step_of_illegal hp hd).symm.trans h; exact .inl rfl

/-! ## The receiver's invariant (R24) -/

theorem clearedReceiver_inv (T : CrcTable) : clearedReceiver.Inv T := ⟨rfl, rfl, rfl, rfl, rfl⟩

/-- The checksum of a span goes on by one update per byte (40_crc8.md R103). -/
theorem crc8_append_singleton (T : CrcTable) (data : List Byte) (b : Byte) :
    crc8 T (data ++ [b]) = crc8Update T (crc8 T data) b := by
  simp [crc8, crc8From_append]

section
variable {T : CrcTable} {rx : Receiver}

/-- R24 before the function byte: every data register at its value after reset. -/
theorem Receiver.inv_iff_of_scan
    (hst : rx.state = .awaitStart1 ∨ rx.state = .awaitStart2 ∨ rx.state = .awaitFunction) :
    rx.Inv T ↔ rx.func = 0#8 ∧ rx.len = 0#8 ∧ rx.remaining = 0#8 ∧ rx.buf = [] ∧ rx.crc = 0#8 := by
  obtain hst | hst | hst := hst <;> simp only [Receiver.Inv, hst]

theorem Receiver.inv_iff_of_awaitLength (hst : rx.state = .awaitLength) :
    rx.Inv T ↔ rx.len = 0#8 ∧ rx.remaining = 0#8 ∧ rx.buf = [] ∧ rx.crc = crc8 T [rx.func] := by
  simp only [Receiver.Inv, hst]

theorem Receiver.inv_iff_of_awaitData (hst : rx.state = .awaitData) :
    rx.Inv T ↔ 1 ≤ rx.len.toNat ∧ rx.len.toNat ≤ 251 ∧ 1 ≤ rx.remaining.toNat ∧ rx.remaining.toNat ≤ rx.len.toNat ∧
      rx.buf.length = rx.len.toNat - rx.remaining.toNat ∧ rx.crc = crc8 T ([rx.func, rx.len] ++ rx.buf) := by
  simp only [Receiver.Inv, hst]

theorem Receiver.inv_iff_of_awaitChecksum (hst : rx.state = .awaitChecksum) :
    rx.Inv T ↔ rx.len.toNat ≤ 251 ∧ rx.remaining = 0#8 ∧ rx.buf.length = rx.len.toNat ∧
      rx.crc = crc8 T ([rx.func, rx.len] ++ rx.buf) := by
  simp only [Receiver.Inv, hst]

variable (b : Byte)

theorem feedStart1_inv (hst : rx.state = .awaitStart1) (h : rx.Inv T) : (feedStart1 rx b).1.Inv T := by
  rw [feedStart1]
  split
  · exact (Receiver.inv_iff_of_scan (.inl hst)).mp h
  · exact h

theorem feedStart2_inv (hst : rx.state = .awaitStart2) (h : rx.Inv T) : (feedStart2 rx b).1.Inv T := by
  have hzero := (Receiver.inv_iff_of_scan (.inr (.inl hst))).mp h
  rw [feedStart2]
  split
  · exact hzero
  · split <;> exact hzero

theorem feedFunction_inv (hst : rx.state = .awaitFunction) (h : rx.Inv T) : (feedFunction T rx b).1.Inv T := by
  obtain ⟨-, hlen, hrem, hbuf, -⟩ := (Receiver.inv_iff_of_scan (.inr (.inr hst))).mp h
  exact ⟨hlen, hrem, hbuf, rfl⟩

/-- A length byte in 1..251 opens a payload with nothing received yet, 0 skips it; any other clears the receiver. -/
theorem feedLength_inv (hst : rx.state = .awaitLength) (h : rx.Inv T) : (feedLength T rx b).1.Inv T := by
  obtain ⟨-, -, -, hcrc⟩ := (Receiver.inv_iff_of_awaitLength hst).mp h
  have hcrc' : crc8Update T rx.crc b = crc8 T [rx.func, b] := by
    rw [hcrc, ← crc8_append_singleton, List.singleton_append]
  rw [feedLength]
  split
  · exact clearedReceiver_inv T
  · rename_i hb
    have hle : b.toNat ≤ 251 := not_lt.mp hb
    by_cases h0 : b = 0#8
    · exact (Receiver.inv_iff_of_awaitChecksum (if_pos h0)).mpr ⟨hle, h0, by simp [h0], hcrc'⟩
    · have hpos : 1 ≤ b.toNat := by bv_omega
      exact (Receiver.inv_iff_of_awaitData (if_neg h0)).mpr ⟨hpos, hle, hpos, le_rfl, by simp, hcrc'⟩

/-- A payload byte adds one to the buffer and takes one from the count, so the two still add up to `rx_len`. -/
theorem feedData_inv (hst : rx.state = .awaitData) (h : rx.Inv T) : (feedData T rx b).1.Inv T := by
  obtain ⟨hlen1, hlen, hrem1, hrem, hbuf, hcrc⟩ := (Receiver.inv_iff_of_awaitData hst).mp h
  have hcrc' : crc8Update T rx.crc b = crc8 T ([rx.func, rx.len] ++ (rx.buf ++ [b])) := by
    rw [hcrc, ← crc8_append_singleton, List.append_assoc]
  have hrem' : (rx.remaining - 1#8).toNat = rx.remaining.toNat - 1 := by bv_omega
  have hbuf' : (rx.buf ++ [b]).length = rx.len.toNat - (rx.remaining - 1#8).toNat := by
    rw [List.length_append, List.length_singleton]
    omega
  by_cases h0 : rx.remaining - 1#8 = 0#8
  · have hfull : (rx.buf ++ [b]).length = rx.len.toNat := by rw [hbuf', h0]; rfl
    exact (Receiver.inv_iff_of_awaitChecksum (if_pos h0)).mpr ⟨hlen, h0, hfull, hcrc'⟩
  · have hmore : 1 ≤ (rx.remaining - 1#8).toNat := by bv_omega
    have hle : (rx.remaining - 1#8).toNat ≤ rx.len.toNat := by omega
    exact (Receiver.inv_iff_of_awaitData (if_neg h0)).mpr ⟨hlen1, hlen, hmore, hle, hbuf', hcrc'⟩

theorem feedChecksum_inv : (feedChecksum rx b).1.Inv T := by
  rw [feedChecksum]
  split <;> exact clearedReceiver_inv T

/-- The receiver's step keeps R24. -/
theorem feed_inv (h : rx.Inv T) : (feed T rx b).1.Inv T := by
  cases hst : rx.state with
  | awaitStart1 => rw [feed_of_awaitStart1 hst]; exact feedStart1_inv b hst h
  | awaitStart2 => rw [feed_of_awaitStart2 hst]; exact feedStart2_inv b hst h
  | awaitFunction => rw [feed_of_awaitFunction hst]; exact feedFunction_inv b hst h
  | awaitLength => rw [feed_of_awaitLength hst]; exact feedLength_inv b hst h
  | awaitData => rw [feed_of_awaitData hst]; exact feedData_inv b hst h
  | awaitChecksum => rw [feed_of_awaitChecksum hst]; exact feedChecksum_inv b

end

/-! ## The live registers (R31)

A register whose contents the receiver overwrites before it reads them again cannot be told from 0. -/

/-- The receiver with every register that is dead in its state set to the value after reset. -/
def Receiver.live (rx : Receiver) : Receiver :=
  match rx.state with
  | .awaitStart1 => { clearedReceiver with state := .awaitStart1 }
  | .awaitStart2 => { clearedReceiver with state := .awaitStart2 }
  | .awaitFunction => { clearedReceiver with state := .awaitFunction }
  | .awaitLength => { clearedReceiver with state := .awaitLength, func := rx.func, crc := rx.crc }
  | .awaitData => rx
  | .awaitChecksum => rx

@[simp] theorem Receiver.live_state (rx : Receiver) : rx.live.state = rx.state := by
  cases h : rx.state <;> simp [Receiver.live, h]

theorem Receiver.live_of_awaitStart1 {rx : Receiver} (h : rx.state = .awaitStart1) : rx.live = clearedReceiver := by
  simp [Receiver.live, h, clearedReceiver]

/-- The receiver's step reads live registers only. -/
theorem feed_live (T : CrcTable) (rx : Receiver) (b : Byte) :
    (feed T rx.live b).1.live = (feed T rx b).1.live ∧ (feed T rx.live b).2 = (feed T rx b).2 := by
  cases hst : rx.state with
  | awaitStart1 =>
    rw [feed_of_awaitStart1 hst, feed_of_awaitStart1 (by simp [hst])]
    by_cases hb : b = Config.start1 <;> simp [feedStart1, hb, Receiver.live, hst]
  | awaitStart2 =>
    rw [feed_of_awaitStart2 hst, feed_of_awaitStart2 (by simp [hst])]
    by_cases hb : b = Config.start2
    · simp [feedStart2, hb, Receiver.live]
    · by_cases hb' : b = Config.start1 <;> simp [feedStart2, hb, hb', Receiver.live]
  | awaitFunction =>
    rw [feed_of_awaitFunction hst, feed_of_awaitFunction (by simp [hst])]
    simp [feedFunction, Receiver.live]
  | awaitLength =>
    rw [feed_of_awaitLength hst, feed_of_awaitLength (by simp [hst])]
    by_cases hb : Config.maxPayload < b.toNat
    · simp [feedLength, hb]
    · simp [feedLength, hb, Receiver.live, hst]
  | awaitData => simp [Receiver.live, hst]
  | awaitChecksum => simp [Receiver.live, hst]

/-- Two states that no run of commands can tell apart: alike but for dead registers. -/
structure State.Alike (s s' : State) : Prop where
  crcTable : s.crcTable = s'.crcTable
  live : s.rx.live = s'.rx.live
  pending : s.pending = s'.pending
  responses : s.responses = s'.responses

namespace State.Alike
variable {s s' : State} (h : s.Alike s')
include h

theorem rxState : s.rx.state = s'.rx.state := by
  rw [← Receiver.live_state, h.live, Receiver.live_state]

theorem respond (status : Status) (data : Data) : (respond status data s).Alike (respond status data s') :=
  ⟨h.crcTable, h.live, h.pending, by simp [h.responses]⟩

theorem setPending (rest : List Request) : (setPending rest s).Alike (setPending rest s') :=
  ⟨h.crcTable, h.live, rfl, h.responses⟩

theorem rxClear : (rxClear s).Alike (rxClear s') := ⟨h.crcTable, rfl, h.pending, h.responses⟩

theorem feedByte (b : Byte) : (feedByte b s).Alike (feedByte b s') := by
  obtain ⟨hrx, hresp⟩ := feed_live s.crcTable s.rx b
  obtain ⟨hrx', hresp'⟩ := feed_live s.crcTable s'.rx b
  rw [← h.live] at hrx' hresp'
  refine ⟨h.crcTable, ?_, h.pending, ?_⟩
  · rw [feedByte_rx, feedByte_rx, ← h.crcTable, ← hrx, hrx']
  · rw [feedByte_responses, feedByte_responses, ← h.crcTable, ← hresp, hresp', h.responses]

theorem exec (i : Instr) : ∃ t t', exec i s = .next t ∧ exec i s' = .next t' ∧ t.Alike t' := by
  obtain hi | rfl | rfl | ⟨b, hb⟩ := isCodec_or_receiver i
  · obtain ⟨resp, hr⟩ := exec_of_isCodec hi s.crcTable
    exact ⟨_, _, hr s rfl, hr s' h.crcTable.symm, h.respond _ _⟩
  · exact ⟨_, _, exec_rxState s, exec_rxState s', h.rxState ▸ h.respond _ _⟩
  · exact ⟨_, _, exec_rxReset s, exec_rxReset s', h.rxClear.respond _ _⟩
  · exact ⟨_, _, exec_of_fedByte hb s, exec_of_fedByte hb s', h.feedByte b⟩

theorem step : ∃ t t', step s = .next t ∧ step s' = .next t' ∧ t.Alike t' := by
  cases hp : s.pending with
  | nil => exact ⟨s, s', step_of_empty hp, step_of_empty (h.pending ▸ hp), h⟩
  | cons r rest =>
    have hp' : s'.pending = r :: rest := h.pending ▸ hp
    cases hd : decode s.rx.state r with
    | ok i =>
      rw [step_of_decode hp hd, step_of_decode hp' (h.rxState ▸ hd)]
      exact (h.setPending rest).exec i
    | error e =>
      exact ⟨_, _, step_of_illegal hp hd, step_of_illegal hp' (h.rxState ▸ hd), (h.setPending rest).respond _ _⟩

end State.Alike

theorem State.Alike.run {s s' : State} (h : s.Alike s') (n : Nat) :
    ∃ t t', run n s = .next t ∧ run n s' = .next t' ∧ t.Alike t' := by
  induction n generalizing s s' with
  | zero => exact ⟨s, s', rfl, rfl, h⟩
  | succ n ih =>
    obtain ⟨u, u', hu, hu', hsim⟩ := h.step
    rw [run_succ_of_step hu, run_succ_of_step hu']
    exact ih hsim

/-! ## The statements -/

/-- Settles O39: the receiver is left, cleared or fed a byte, and each of the three keeps R24 under the table, which stays. -/
theorem stepKeepsTheReceiverInvariant : Obligations.StepKeepsTheReceiverInvariant := by
  intro s t hinv hstep
  rw [State.Inv, step_crcTable hstep]
  obtain hrx | hrx | ⟨b, hrx⟩ := step_rx_cases hstep <;> rw [hrx]
  · exact hinv
  · exact clearedReceiver_inv s.crcTable
  · exact feed_inv b hinv

/-- Settles O40: an instruction or a step writes receiver registers, the port and the responses, nothing else. -/
theorem crcTableIsNeverWritten : Obligations.CrcTableIsNeverWritten :=
  ⟨fun _ _ _ => exec_crcTable, fun _ _ => step_crcTable⟩

/-- Settles O44: each codec's status and data are functions of its operands and the table. -/
theorem codecUnitsArePure : Obligations.CodecUnitsArePure :=
  fun T _ hi => exec_of_isCodec hi T

/-- Settles O56: in `AWAIT_START1` no data register is live, and runs from states alike but for dead registers answer alike. -/
theorem dataRegistersAreUnobservableAtStart : Obligations.DataRegistersAreUnobservableAtStart := by
  intro s rx n hs hrx
  have halike : s.Alike { s with rx := rx } :=
    ⟨rfl, by rw [Receiver.live_of_awaitStart1 hs, Receiver.live_of_awaitStart1 hrx], rfl, rfl⟩
  obtain ⟨t, t', ht, ht', hend⟩ := halike.run n
  exact ⟨t, t', ht, ht', hend.responses, hend.rxState, hend.pending⟩

/-- Settles O38: reset leaves the receiver as `rx_clear()` does. -/
theorem resetMeetsTheReceiverInvariant : Obligations.ResetMeetsTheReceiverInvariant :=
  clearedReceiver_inv

end Sys2Proof.Machine

/-! # Runs over the command port: frames in feed order, an answer per command (20_memory.md)

The layer first: the receiver over the bytes of a frame, field by field, then over frames back to back; the answers of a run,
one per command; and which answer carries a frame. After it the statements of the family. -/

namespace Sys2Proof.Machine

/-! ## The receiver over the bytes of a frame (43_frame_receiver.md R161 to R168) -/

/-- The bytes of a frame that its checksum covers: function, length, payload (30_encoding.md R62). -/
def frameSpan (func : Byte) (payload : List Byte) : List Byte := func :: BitVec.ofNat 8 payload.length :: payload

theorem frameBytes_eq_span (T : CrcTable) (func : Byte) (payload : List Byte) :
    frameBytes T func payload =
      [0xAA#8, 0x55#8] ++ frameSpan func payload ++ [crc8 T (frameSpan func payload)] := rfl

/-- The answers to a whole frame's bytes, the last of them to its checksum byte (R167, R175). -/
def frameAnswers (frame : Frame) : List Response :=
  List.replicate (frame.payload.length + 4) noFrame ++ [{ status := .frameReady, data := .frame frame }]

section
variable (T : CrcTable) {rx : Receiver}

/-- The start pair, from either start state. -/
theorem feedAll_startPair (hst : rx.state = .awaitStart1 ∨ rx.state = .awaitStart2) :
    feedAll T rx [0xAA#8, 0x55#8] = ({ rx with state := .awaitFunction }, [noFrame, noFrame]) := by
  have hfirst : feed T rx 0xAA#8 = ({ rx with state := .awaitStart2 }, noFrame) := by
    obtain hst | hst := hst
    · rw [feed_of_awaitStart1 hst]; rfl
    · rw [feed_of_awaitStart2 hst]; rfl
  rw [feedAll_cons, hfirst]
  rfl

/-- The payload bytes, as many as `rx_remaining` says; with none the receiver is in `AWAIT_CHECKSUM` already. -/
theorem feedAll_payload (payload : List Byte) (hlen : payload.length ≤ 251)
    (hrem : rx.remaining = BitVec.ofNat 8 payload.length)
    (hst : rx.state = if rx.remaining = 0#8 then .awaitChecksum else .awaitData) :
    feedAll T rx payload =
      ({ rx with
          buf := rx.buf ++ payload, crc := crc8From T rx.crc payload, remaining := 0#8, state := .awaitChecksum },
        List.replicate payload.length noFrame) := by
  induction payload generalizing rx with
  | nil =>
    obtain ⟨st, func, len, rem, buf, crc⟩ := rx
    cases hrem
    cases hst
    simp
  | cons b payload ih =>
    rw [List.length_cons] at hlen hrem
    have hpos : rx.remaining ≠ 0#8 := by bv_omega
    have hdec : rx.remaining - 1#8 = BitVec.ofNat 8 payload.length := by bv_omega
    rw [if_neg hpos] at hst
    rw [feedAll_cons, feed_of_awaitData hst, feedData, ih (by omega) hdec rfl]
    simp [List.replicate_succ]

/-- Function, length and payload: the registers then hold the frame and the checksum of its span. -/
theorem feedAll_frameSpan (func : Byte) (payload : List Byte) (hlen : payload.length ≤ 251)
    (hst : rx.state = .awaitFunction) :
    feedAll T rx (frameSpan func payload) =
      ({ state := .awaitChecksum, func := func, len := BitVec.ofNat 8 payload.length, remaining := 0#8, buf := payload,
          crc := crc8 T (frameSpan func payload) },
        List.replicate (payload.length + 2) noFrame) := by
  have hlegal : ¬ Config.maxPayload < (BitVec.ofNat 8 payload.length).toNat := by
    rw [BitVec.toNat_ofNat, Nat.mod_eq_of_lt (by omega)]
    exact not_lt.mpr hlen
  rw [frameSpan, feedAll_cons, feed_of_awaitFunction hst, feedFunction, feedAll_cons, feed_of_awaitLength rfl, feedLength,
    if_neg hlegal, feedAll_payload T payload hlen rfl rfl]
  simp [List.replicate_succ, crc8]

/-- A frame's bytes before its checksum byte, from either start state. -/
theorem feedAll_beforeChecksum (func : Byte) (payload : List Byte) (hlen : payload.length ≤ 251)
    (hst : rx.state = .awaitStart1 ∨ rx.state = .awaitStart2) :
    feedAll T rx ([0xAA#8, 0x55#8] ++ frameSpan func payload) =
      ({ state := .awaitChecksum, func := func, len := BitVec.ofNat 8 payload.length, remaining := 0#8, buf := payload,
          crc := crc8 T (frameSpan func payload) },
        List.replicate (payload.length + 4) noFrame) := by
  rw [feedAll_append, feedAll_startPair T hst, feedAll_frameSpan T func payload hlen rfl]
  simp [List.replicate_succ]

/-- A whole frame: the checksum byte is the one the receiver awaits. -/
theorem feedAll_frameBytes (func : Byte) (payload : List Byte) (hlen : payload.length ≤ 251)
    (hst : rx.state = .awaitStart1 ∨ rx.state = .awaitStart2) :
    feedAll T rx (frameBytes T func payload) =
      (clearedReceiver, frameAnswers { function := func, payload := payload }) := by
  rw [frameBytes_eq_span, feedAll_append, feedAll_beforeChecksum T func payload hlen hst, feedAll_cons,
    feed_of_awaitChecksum rfl, feedChecksum, if_pos rfl]
  rfl

/-- Frames back to back: each is answered as if it were alone, since it leaves the receiver in `AWAIT_START1`
(R174). -/
theorem feedAll_frames (frames : List Frame) (hlen : ∀ f ∈ frames, f.payload.length ≤ 251)
    (hst : rx.state = .awaitStart1) :
    (feedAll T rx (frames.flatMap fun f => frameBytes T f.function f.payload)).1.state = .awaitStart1 ∧
      (feedAll T rx (frames.flatMap fun f => frameBytes T f.function f.payload)).2 = frames.flatMap frameAnswers := by
  induction frames generalizing rx with
  | nil => exact ⟨hst, rfl⟩
  | cons f frames ih =>
    obtain ⟨hf, hlen⟩ := List.forall_mem_cons.mp hlen
    obtain ⟨hend, hanswers⟩ := ih hlen (rx := clearedReceiver) rfl
    rw [List.flatMap_cons, feedAll_append, feedAll_frameBytes T f.function f.payload hf (.inl hst)]
    exact ⟨hend, congrArg (frameAnswers f ++ ·) hanswers⟩

end

/-! ## The answers of a run, one per command (20_memory.md R47, R50) -/

/-- `t` is the state after `k` steps of a run from `s` whose commands are answered by `answers`: the first `k` commands have left
the port, and the first `k` answers stand after the earlier responses. -/
structure AfterSteps (s : State) (answers : List Response) (k : Nat) (t : State) : Prop where
  run : run k s = .next t
  pending : t.pending = s.pending.drop k
  responses : t.responses = s.responses ++ answers.take k

/-- Every command at the port has its answer: one step takes one command and adds one response. -/
theorem exists_answers (s : State) : ∃ answers : List Response, answers.length = s.pending.length ∧
    ∀ k, k ≤ s.pending.length → ∃ t, AfterSteps s answers k t := by
  generalize hp : s.pending = commands
  induction commands generalizing s with
  | nil =>
    refine ⟨[], rfl, fun k hk => ⟨s, ?_⟩⟩
    cases Nat.le_zero.mp hk
    exact ⟨rfl, rfl, (List.append_nil _).symm⟩
  | cons r rest ih =>
    obtain ⟨rx, resp, hstep⟩ := step_answers hp
    obtain ⟨answers, hlen, hafter⟩ := ih _ (rfl : (respond _ _ (setReceiver rx (setPending rest s))).pending = rest)
    refine ⟨resp :: answers, congrArg Nat.succ hlen, fun k hk => ?_⟩
    cases k with
    | zero => exact ⟨s, rfl, rfl, (List.append_nil _).symm⟩
    | succ k =>
      obtain ⟨t, hrun, hpend, hresp⟩ := hafter k (Nat.le_of_succ_le_succ hk)
      refine ⟨t, (run_succ_of_step hstep).trans hrun, ?_, ?_⟩
      · rw [hpend, hp]; rfl
      · rw [hresp, respond_responses, List.append_assoc]; rfl

namespace AfterSteps
variable {s t u : State} {answers : List Response} {k : Nat}

/-- The run has ended exactly when every command has left the port (70_reset_and_hazards.md R251). -/
theorem runEnded_iff (h : AfterSteps s answers k t) (hk : k ≤ s.pending.length) :
    t.runEnded = true ↔ k = s.pending.length := by
  rw [State.runEnded, List.isEmpty_iff, h.pending, List.drop_eq_nil_iff]
  omega

/-- The oldest command still at the port is the one numbered `k`. -/
theorem pending_eq_cons (h : AfterSteps s answers k t) {r : Request} (hr : s.pending[k]? = some r) :
    t.pending = r :: s.pending.drop (k + 1) := by
  obtain ⟨hk, rfl⟩ := List.getElem?_eq_some_iff.mp hr
  rw [h.pending, List.drop_eq_getElem_cons hk]

theorem step_eq (h : AfterSteps s answers k t) (h' : AfterSteps s answers (k + 1) u) : step t = .next u := by
  have hone : Sys2Proof.Machine.run 1 t = .next u := (run_add h.run).symm.trans h'.run
  rw [run_succ] at hone
  split at hone
  · rw [← hone]; assumption
  · cases hone
  · cases hone

theorem responses_succ (h : AfterSteps s answers k t) (h' : AfterSteps s answers (k + 1) u) {resp : Response}
    (hresp : answers[k]? = some resp) : u.responses = t.responses ++ [resp] := by
  rw [h'.responses, h.responses, List.append_assoc, List.take_add_one, hresp]
  rfl

end AfterSteps

/-- Command `k` of a run is answered by answer `k`: the step on it adds that response. -/
theorem exists_step_of_command {s t : State} {answers : List Response} {k : Nat} {r : Request}
    (hlen : answers.length = s.pending.length) (hafter : ∀ k, k ≤ s.pending.length → ∃ t, AfterSteps s answers k t)
    (ht : AfterSteps s answers k t) (hr : s.pending[k]? = some r) :
    ∃ (u : State) (resp : Response), answers[k]? = some resp ∧ step t = .next u ∧
      u.responses = t.responses ++ [resp] := by
  obtain ⟨hk, -⟩ := List.getElem?_eq_some_iff.mp hr
  obtain ⟨u, hu⟩ := hafter (k + 1) hk
  have hresp := List.getElem?_eq_getElem (hlen ▸ hk : k < answers.length)
  exact ⟨u, _, hresp, ht.step_eq hu, ht.responses_succ hu hresp⟩

/-! ## Which answer carries a frame (20_memory.md R51) -/

/-- The receiver delivers a frame exactly on the checksum byte it awaits (R167). -/
theorem feed_frame_iff (T : CrcTable) (rx : Receiver) (b : Byte) (frame : Frame) :
    (feed T rx b).2.data = .frame frame ↔
      rx.state = .awaitChecksum ∧ b = rx.crc ∧ frame = { function := rx.func, payload := rx.buf } := by
  obtain ⟨_, hst, -, h⟩ | ⟨hst, h⟩ | ⟨hst, -, h⟩ | ⟨hst, h⟩ | ⟨hst, -, h⟩ | ⟨hst, hb, h⟩ | ⟨hst, hb, h⟩ :=
    feed_cases T rx b
  · obtain hst | hst := hst <;> simp [h, hst, noFrame]
  · simp [h, hst, noFrame]
  · simp [h, hst, noFrame]
  · simp [h, hst, noFrame]
  · simp [h, hst]
  · rw [h]
    simp [hst, hb, eq_comm]
  · simp [h, hst, hb]

/-- An instruction that feeds no byte answers no frame. -/
theorem exec_no_frame {i : Instr} {s t : State} {resp : Response} (hi : fedByte i = none) (he : exec i s = .next t)
    (hresp : t.responses = s.responses ++ [resp]) (frame : Frame) : resp.data ≠ .frame frame := by
  cases i
  case crc8 | rxReset | rxState =>
    cases he
    cases List.append_cancel_left hresp
    nofun
  case encode | rgbEncode | rgbDecode =>
    simp only [exec_encode, exec_rgbEncode, exec_rgbDecode] at he
    split at he <;> cases he <;> cases List.append_cancel_left hresp <;> nofun
  all_goals cases hi

/-- `RX_FEED`, and no other command, decodes to an instruction that feeds a byte: its operand. -/
theorem fedByte_of_decodeCommand {r : Request} {i : Instr} (h : decodeCommand r = .ok i) :
    fedByte i = if r.code = 0x05#8 then some r.operands.byte else none := by
  have hcode : r.code = 0x05#8 ↔ r.code.toNat = 5 := BitVec.toNat_inj.symm
  simp only [hcode]
  unfold decodeCommand at h
  split at h <;> cases h <;> simp [fedByte, operandByte, *]

theorem code_ne_rxFeed_of_illegal {r : Request} {e : DecodeError} (h : decodeCommand r = .error e) : r.code ≠ 0x05#8 := by
  intro hcode
  simp [decodeCommand, hcode] at h

/-- The answer of a step on a command carries a frame exactly when the command is an `RX_FEED` of the checksum byte awaited. -/
theorem step_frame_iff {s u : State} {r : Request} {rest : List Request} {resp : Response} (hp : s.pending = r :: rest)
    (hstep : step s = .next u) (hresp : u.responses = s.responses ++ [resp]) (frame : Frame) :
    resp.data = .frame frame ↔ r.code = 0x05#8 ∧ s.rx.state = .awaitChecksum ∧ r.operands.byte = s.rx.crc ∧
      frame = { function := s.rx.func, payload := s.rx.buf } := by
  cases hd : decodeCommand r with
  | error e =>
    have hill : decode s.rx.state r = .error e := by simp [decode, hd]
    cases (step_of_illegal hp hill).symm.trans hstep
    cases List.append_cancel_left hresp
    simp [code_ne_rxFeed_of_illegal hd]
  | ok i =>
    have he := (step_of_decodeCommand hp hd).symm.trans hstep
    have hfed := fedByte_of_decodeCommand hd
    by_cases hcode : r.code = 0x05#8
    · rw [if_pos hcode] at hfed
      cases (exec_of_fedByte hfed _).symm.trans he
      cases List.append_cancel_left hresp
      exact (feed_frame_iff _ _ _ frame).trans (iff_and_self.mpr fun _ => hcode)
    · rw [if_neg hcode] at hfed
      exact iff_of_false (exec_no_frame hfed he hresp frame) fun h => hcode h.1

/-! ## The statements -/

/-- Settles O50: the receiver over frames back to back, fed by a run over the port. -/
theorem framesAreDeliveredInFeedOrder : Obligations.FramesAreDeliveredInFeedOrder := by
  rintro s frames rest hlen hst stream rfl hp
  obtain ⟨hend, hanswers⟩ := feedAll_frames s.crcTable frames hlen hst
  exact ⟨_, run_of_feedRequests _ s rest hp, rfl, hend, congrArg (s.responses ++ ·) hanswers⟩

/-- Settles O48: every step of the run takes the next command and adds its answer, which is `exec`'s or `ILLEGAL_COMMAND`. -/
theorem runAnswersEveryCommandInOrder : Obligations.RunAnswersEveryCommandInOrder := by
  intro s
  obtain ⟨answers, hlen, hafter⟩ := exists_answers s
  refine ⟨answers, hlen, fun k hk => ?_⟩
  obtain ⟨t, ht⟩ := hafter k hk
  refine ⟨t, ht.run, ht.pending, ht.responses, ht.runEnded_iff hk, fun r hr => ?_⟩
  have hp := ht.pending_eq_cons hr
  obtain ⟨u, resp, hanswer, hstep, hresp⟩ := exists_step_of_command hlen hafter ht hr
  refine ⟨u, resp, hanswer, hstep, hresp, fun i hd => (step_of_decode hp hd).symm.trans hstep, fun e hd => ?_⟩
  cases (step_of_illegal hp hd).symm.trans hstep
  cases List.append_cancel_left hresp
  rfl

/-- Settles O58: answer `k` is the one the step on command `k` adds, and that step decides whether it carries a frame. -/
theorem framesComeInTheOrderOfTheirChecksumBytes : Obligations.FramesComeInTheOrderOfTheirChecksumBytes := by
  intro s
  obtain ⟨answers, hlen, hafter⟩ := exists_answers s
  refine ⟨answers, hlen, fun k hk => ?_⟩
  obtain ⟨t, ht⟩ := hafter k hk
  refine ⟨t, ht.run, ht.responses, fun frame => ?_⟩
  cases hr : s.pending[k]? with
  | none =>
    have hnone : answers[k]? = none := by
      rw [List.getElem?_eq_none_iff, hlen, ← List.getElem?_eq_none_iff, hr]
    simp [hnone]
  | some r =>
    obtain ⟨u, ⟨status, data⟩, hanswer, hstep, hresp⟩ := exists_step_of_command hlen hafter ht hr
    obtain ⟨code, operands⟩ := r
    have hiff := step_frame_iff (ht.pending_eq_cons hr) hstep hresp frame
    simpa [hanswer, and_assoc] using hiff

end Sys2Proof.Machine

/-! # The wire frame by its offsets (30_encoding.md R60 to R63)

The layer first: a frame written from its three free fields, and where each byte of it stands; every legal frame is one of that
form. After it the statements of the family. -/

namespace Sys2Proof.Machine

/-! ## A frame from its fields -/

/-- The frame with these fields: start pair, span, checksum, whether or not the checksum is that of the span (R60). -/
def wireFrame (func : Byte) (payload : List Byte) (checksum : Byte) : List Byte :=
  [0xAA#8, 0x55#8] ++ frameSpan func payload ++ [checksum]

theorem frameBytes_eq_wireFrame (T : CrcTable) (func : Byte) (payload : List Byte) :
    frameBytes T func payload = wireFrame func payload (crc8 T (frameSpan func payload)) := rfl

theorem toNat_lengthByte {payload : List Byte} (hlen : payload.length ≤ 251) :
    (BitVec.ofNat 8 payload.length).toNat = payload.length := by
  rw [BitVec.toNat_ofNat, Nat.mod_eq_of_lt (by omega)]

section
variable (func : Byte) (payload : List Byte) (checksum : Byte)

theorem wireFrame_length : (wireFrame func payload checksum).length = payload.length + 5 := by
  simp [wireFrame, frameSpan]

theorem wireFrame_drop_four : (wireFrame func payload checksum).drop 4 = payload ++ [checksum] := rfl

theorem wireFrame_payload : ((wireFrame func payload checksum).drop 4).take payload.length = payload := by
  rw [wireFrame_drop_four, List.take_left]

theorem wireFrame_getElem?_payload {i : Nat} (hi : i < payload.length) :
    (wireFrame func payload checksum)[4 + i]? = payload[i]? := by
  rw [← List.getElem?_drop, wireFrame_drop_four, List.getElem?_append_left hi]

theorem wireFrame_getElem?_checksum : (wireFrame func payload checksum)[4 + payload.length]? = some checksum := by
  rw [← List.getElem?_drop, wireFrame_drop_four, List.getElem?_concat_length]

/-- What stands at offsets 2 to `3 + L` is the span (R62). -/
theorem wireFrame_span :
    ((wireFrame func payload checksum).drop 2).take (2 + payload.length) = frameSpan func payload :=
  List.take_left' (by simp [frameSpan]; omega)

/-- The span again, as `frameValid` cuts it. -/
theorem wireFrame_span_dropLast : ((wireFrame func payload checksum).drop 2).dropLast = frameSpan func payload :=
  List.dropLast_concat

variable (hlen : payload.length ≤ 251)
include hlen

theorem frameFields?_wireFrame :
    frameFields? (wireFrame func payload checksum) = some ({ function := func, payload := payload }, checksum) := by
  simp [wireFrame, frameSpan, frameFields?, toNat_lengthByte hlen, hlen]

theorem frameValid_wireFrame (T : CrcTable) :
    frameValid T (wireFrame func payload checksum) = true ↔ checksum = crc8 T (frameSpan func payload) := by
  rw [frameValid, frameFields?_wireFrame func payload checksum hlen, wireFrame_span_dropLast]
  exact beq_iff_eq

end

/-- R63's legal frames are the frames of that form: the bytes after the length byte are a payload of that length and one more. -/
theorem exists_wireFrame {fr : List Byte} {L : Nat} (h0 : fr[0]? = some 0xAA#8) (h1 : fr[1]? = some 0x55#8)
    (hL : L = (fr.getD 3 0#8).toNat) (hlen : fr.length = L + 5) :
    ∃ (func : Byte) (payload : List Byte) (checksum : Byte), payload.length = L ∧ fr = wireFrame func payload checksum := by
  match fr, h0, h1 with
  | _ :: _ :: func :: l :: rest, rfl, rfl =>
    have hrest : rest.length = L + 1 := by simpa using hlen
    have hne : rest ≠ [] := List.ne_nil_of_length_eq_add_one hrest
    have hpayload : rest.dropLast.length = L := by rw [List.length_dropLast, hrest, Nat.add_sub_cancel]
    have hl : l = BitVec.ofNat 8 L := by rw [hL]; exact (BitVec.ofNat_toNat 8 l).symm
    refine ⟨func, rest.dropLast, rest.getLast hne, hpayload, ?_⟩
    rw [wireFrame, frameSpan, hpayload, ← hl]
    exact congrArg ([0xAA#8, 0x55#8, func, l] ++ ·) (List.dropLast_concat_getLast hne).symm

/-! ## The encoder's answer -/

theorem exec_encode_of_le (func : Byte) {payload : List Byte} (s : State) (hlen : payload.length ≤ 251) :
    exec (.encode func payload) s = .next (respond .ok (.bytes (frameBytes s.crcTable func payload)) s) := by
  rw [exec_encode, if_neg (by simpa [encodeRefuses] using hlen)]

/-! ## The statements -/

/-- Settles O18: the frame answered is a `wireFrame`, whose bytes stand at their offsets. -/
theorem encodedFrameLayout : Obligations.EncodedFrameLayout := by
  intro func payload s hlen
  refine ⟨frameBytes s.crcTable func payload, exec_encode_of_le func s hlen, ?_⟩
  rw [frameBytes_eq_wireFrame]
  refine ⟨wireFrame_length .., rfl, rfl, rfl, ⟨_, rfl, toNat_lengthByte hlen⟩, ?_, ?_, ?_⟩
  · exact fun i hi => wireFrame_getElem?_payload func payload _ hi
  · rw [wireFrame_span, wireFrame_getElem?_checksum]
  · exact wireFrame_span func payload _

/-- Settles O19: a legal frame is a `wireFrame`, and its fields are the ones it is written from. -/
theorem legalFrameFields : Obligations.LegalFrameFields := by
  intro T fr L _ h0 h1 hL hmax hlen
  obtain ⟨func, payload, checksum, rfl, rfl⟩ := exists_wireFrame h0 h1 hL hlen
  have hchecksum : (wireFrame func payload checksum).getD (4 + payload.length) 0#8 = checksum := by
    rw [List.getD_eq_getElem?_getD, wireFrame_getElem?_checksum, Option.getD_some]
  rw [hchecksum, wireFrame_payload, wireFrame_span]
  exact ⟨frameFields?_wireFrame func payload checksum hmax, frameValid_wireFrame func payload checksum hmax T⟩

end Sys2Proof.Machine

/-! # The CRC8 command's answer (40_crc8.md R100, R102) -/

namespace Sys2Proof.Machine

/-- R102's loop is the left fold of R100's update step from accumulator 0. -/
theorem crc8_eq_foldl (T : CrcTable) (data : List Byte) : crc8 T data = data.foldl (crc8Update T) 0#8 :=
  (crc8_eq_crc8From T data).trans (crc8From_eq_foldl T 0#8 data)

/-- Settles O10: the checksum answered is that fold, whose step is the table lookup at `acc XOR b`. -/
theorem crc8AnswersTheSpanChecksum : Obligations.Crc8AnswersTheSpanChecksum := by
  intro data s
  have hstep : crc8Update s.crcTable = fun acc b => s.crcTable[(acc ^^^ b).toNat]'((acc ^^^ b).isLt) := rfl
  rw [exec_crc8, crc8_eq_foldl, hstep]
  rfl

end Sys2Proof.Machine

/-! # The frame encoder (41_frame_encoder.md)

The layer first: a valid byte list is a legal frame, and a span with its own checksum behind it folds to entry 0 of the table.
After it the statements of the family. -/

namespace Sys2Proof.Machine

/-! ## Valid byte lists -/

/-- Fields are read from legal frames only: the start pair, a length byte of at most 251, and that many bytes (R63). -/
theorem legal_of_frameFields? {fr : List Byte} {fields : Frame × Byte} (h : frameFields? fr = some fields) :
    fr[0]? = some 0xAA#8 ∧ fr[1]? = some 0x55#8 ∧ (fr.getD 3 0#8).toNat ≤ 251 ∧
      fr.length = (fr.getD 3 0#8).toNat + 5 := by
  match fr with
  | s1 :: s2 :: func :: l :: rest =>
    rw [frameFields?] at h
    split at h
    case isFalse => cases h
    case isTrue hlegal =>
      obtain ⟨rfl, rfl, hmax, hrest⟩ := hlegal
      exact ⟨rfl, rfl, hmax, congrArg (· + 4) hrest⟩
  | [] | [_] | [_, _] | [_, _, _] => cases h

theorem exists_frameFields?_of_frameValid {T : CrcTable} {fr : List Byte} (h : frameValid T fr = true) :
    ∃ fields, frameFields? fr = some fields := by
  cases hf : frameFields? fr with
  | some fields => exact ⟨fields, rfl⟩
  | none => simp [frameValid, hf] at h

/-- A valid byte list is the frame of some fields. -/
theorem exists_wireFrame_of_frameValid {T : CrcTable} {fr : List Byte} (h : frameValid T fr = true) :
    ∃ (func : Byte) (payload : List Byte) (checksum : Byte), payload.length ≤ 251 ∧
      fr = wireFrame func payload checksum := by
  obtain ⟨fields, hf⟩ := exists_frameFields?_of_frameValid h
  obtain ⟨h0, h1, hmax, hlen⟩ := legal_of_frameFields? hf
  obtain ⟨func, payload, checksum, hL, hfr⟩ := exists_wireFrame h0 h1 rfl hlen
  exact ⟨func, payload, checksum, hL ▸ hmax, hfr⟩

/-- A frame is valid by its checksum alone, and the encoder writes that checksum (R63, R121). -/
theorem frameValid_iff_exists_frameBytes (T : CrcTable) (fr : List Byte) :
    frameValid T fr = true ↔
      ∃ (func : Byte) (payload : List Byte), payload.length ≤ 251 ∧ fr = frameBytes T func payload := by
  constructor
  · intro h
    obtain ⟨func, payload, checksum, hlen, rfl⟩ := exists_wireFrame_of_frameValid h
    have hchecksum := (frameValid_wireFrame func payload checksum hlen T).mp h
    exact ⟨func, payload, hlen, by rw [frameBytes_eq_wireFrame, hchecksum]⟩
  · rintro ⟨func, payload, hlen, rfl⟩
    exact (frameValid_wireFrame func payload _ hlen T).mpr rfl

/-! ## The length of a built frame -/

theorem frameBytes_length (T : CrcTable) (func : Byte) (payload : List Byte) :
    (frameBytes T func payload).length = payload.length + 5 :=
  wireFrame_length func payload _

/-- R61: the length byte alone gives the frame's length, whatever follows the frame in the stream. -/
theorem frameLength?_frameBytes_append (T : CrcTable) (func : Byte) {payload : List Byte} (rest : List Byte)
    (hlen : payload.length ≤ 251) : frameLength? (frameBytes T func payload ++ rest) = some (payload.length + 5) := by
  have hbyte : (frameBytes T func payload ++ rest)[3]? = some (BitVec.ofNat 8 payload.length) := rfl
  simp only [frameLength?, hbyte, toNat_lengthByte hlen]
  exact if_pos hlen

/-! ## A span with its own checksum -/

/-- The last update looks up the checksum XORed with itself (40_crc8.md R106(c)). -/
theorem crc8_append_own_checksum (T : CrcTable) (data : List Byte) : crc8 T (data ++ [crc8 T data]) = tableEntry T 0#8 := by
  rw [crc8_append_singleton, crc8Update_eq, BitVec.xor_self]

theorem frameBytes_drop_two (T : CrcTable) (func : Byte) (payload : List Byte) :
    (frameBytes T func payload).drop 2 = frameSpan func payload ++ [crc8 T (frameSpan func payload)] := rfl

theorem tableEntry_dallasMaximTable_zero : tableEntry dallasMaximTable 0#8 = 0#8 := by decide

/-! ## The encoder's refusal -/

theorem exec_encode_of_lt (func : Byte) {payload : List Byte} (s : State) (hlen : 251 < payload.length) :
    exec (.encode func payload) s = .next (raiseInvalidArgument s) := by
  rw [exec_encode, if_pos (by simpa [encodeRefuses] using hlen)]

/-! ## The statements -/

/-- Settles O20: a valid byte list is the `wireFrame` with its span's checksum, which is the frame the encoder builds. -/
theorem validFramesAreTheEncodersFrames : Obligations.ValidFramesAreTheEncodersFrames := by
  intro T
  refine ⟨frameValid_iff_exists_frameBytes T, fun func payload rest hlen => ?_⟩
  rw [frameLength?_frameBytes_append T func rest hlen, frameBytes_length]

/-- Settles O17: the two sides of the encoder's one check. -/
theorem encodeBuildsTheFrame : Obligations.EncodeBuildsTheFrame := by
  intro func payload s
  refine ⟨exec_encode_of_lt func s, fun hlen => ⟨frameBytes s.crcTable func payload, rfl, ?_, ?_⟩⟩
  · exact frameBytes_length s.crcTable func payload
  · exact exec_encode_of_le func s hlen

/-- Settles O21: from its function byte on a frame is a span with its own checksum, and entry 0 of the default table is 0. -/
theorem dallasFrameFoldsToZero : Obligations.DallasFrameFoldsToZero := by
  intro func payload _
  rw [frameBytes_drop_two, crc8_append_own_checksum, tableEntry_dallasMaximTable_zero]

/-- Settles O57: the empty payload is accepted, and its span `0B 00` has the checksum `23` under the default table. -/
theorem encodeWorkedExample : Obligations.EncodeWorkedExample := by
  intro s hs
  have hframe : frameBytes s.crcTable 0x0B#8 [] = [0xAA#8, 0x55#8, 0x0B#8, 0x00#8, 0x23#8] := by rw [hs]; decide
  rw [exec_encode_of_le 0x0B#8 (payload := []) s (Nat.zero_le 251), hframe]
  rfl

end Sys2Proof.Machine

/-! # The RGB payload formatter (42_rgb_payload.md)

The layer first: the wire ids, the pixel entries and the two commands' checks, each with its inverse. After it the two commands'
answers, the pseudo-command `RGB_FRAME`, and the statements of the family. -/

namespace Sys2Proof.Machine

/-! ## Ids on the wire (30_encoding.md R68) -/

/-- An id the table admits (R68; decision D13). -/
def IdAdmitted (p : Pixel) : Prop := 1 ≤ p.id ∧ p.id ≤ 256

theorem appId_wireId {id : Nat} (hmin : 1 ≤ id) (hmax : id ≤ 256) : appId (wireId id) = id := by
  rw [appId, wireId, BitVec.toNat_ofNat, Nat.mod_eq_of_lt (by omega), Nat.sub_add_cancel hmin]

theorem wireId_appId (w : Byte) : wireId (appId w) = w := by
  rw [wireId, appId, Nat.add_sub_cancel, BitVec.ofNat_toNat, BitVec.setWidth_eq]

theorem idAdmitted_appId (w r g b : Byte) : IdAdmitted ⟨appId w, r, g, b⟩ :=
  ⟨Nat.le_add_left 1 w.toNat, w.isLt⟩

/-! ## Pixel entries (30_encoding.md R67) -/

theorem length_pixelEntries (pixels : List Pixel) : (pixels.flatMap pixelBytes).length = 4 * pixels.length := by
  induction pixels with
  | nil => rfl
  | cons p rest ih =>
    rw [List.flatMap_cons, List.length_append, ih, List.length_cons, Nat.mul_succ, Nat.add_comm]
    rfl

theorem readPixels_pixelBytes_append {p : Pixel} (hid : IdAdmitted p) (rest : List Byte) :
    readPixels (pixelBytes p ++ rest) = p :: readPixels rest := by
  obtain ⟨hmin, hmax⟩ := hid
  simp [pixelBytes, readPixels, appId_wireId hmin hmax]

theorem readPixels_pixelEntries {pixels : List Pixel} (hids : ∀ p ∈ pixels, IdAdmitted p) :
    readPixels (pixels.flatMap pixelBytes) = pixels := by
  induction pixels with
  | nil => rfl
  | cons p rest ih =>
    obtain ⟨hp, hrest⟩ := List.forall_mem_cons.mp hids
    rw [List.flatMap_cons, readPixels_pixelBytes_append hp, ih hrest]

theorem idAdmitted_of_mem_readPixels (entries : List Byte) : ∀ p ∈ readPixels entries, IdAdmitted p := by
  induction entries using readPixels.induct with
  | case1 w r g b rest ih => exact List.forall_mem_cons.mpr ⟨idAdmitted_appId w r g b, ih⟩
  | case2 | case3 | case4 | case5 => exact List.forall_mem_nil _

/-- A list of whole entries is the entries of the pixels read from it. -/
theorem pixelEntries_readPixels {entries : List Byte} (hwhole : 4 ∣ entries.length) :
    (readPixels entries).flatMap pixelBytes = entries := by
  induction entries using readPixels.induct with
  | case1 w r g b rest ih =>
    have hrest : 4 ∣ rest.length := (Nat.dvd_add_left (Nat.dvd_refl 4)).mp hwhole
    rw [readPixels, List.flatMap_cons, ih hrest, pixelBytes, wireId_appId]
    rfl
  | case2 => rfl
  | case3 | case4 | case5 => simp at hwhole

theorem length_readPixels {entries : List Byte} {n : Nat} (hlen : entries.length = 4 * n) :
    (readPixels entries).length = n := by
  have hentries := length_pixelEntries (readPixels entries)
  rw [pixelEntries_readPixels ⟨n, hlen⟩, hlen] at hentries
  exact (Nat.eq_of_mul_eq_mul_left (by decide) hentries).symm

/-! ## The checks of the two commands -/

theorem idRefused_eq_false_iff (p : Pixel) : idRefused p = false ↔ IdAdmitted p := by
  simp [idRefused, IdAdmitted, Nat.one_le_iff_ne_zero]

theorem rgbEncodeRefuses_eq_false_iff (pixels : List Pixel) :
    rgbEncodeRefuses pixels = false ↔ pixels.length ≤ 62 ∧ ∀ p ∈ pixels, IdAdmitted p := by
  simp [rgbEncodeRefuses, idRefused_eq_false_iff]

theorem wellFormed_rgbEncode_iff (pixels : List Pixel) :
    (Instr.rgbEncode pixels).wellFormed = true ↔ pixels.length ≤ 62 ∧ ∀ p ∈ pixels, IdAdmitted p := by
  simp [Instr.wellFormed, Pixel.wellFormed, IdAdmitted]

/-- The operands the table admits are those `RGB_ENCODE` does not refuse. -/
theorem rgbEncodeRefuses_eq_not_wellFormed (pixels : List Pixel) :
    rgbEncodeRefuses pixels = !(Instr.rgbEncode pixels).wellFormed := by
  rw [← Bool.not_eq_eq_eq_not, Bool.eq_iff_iff, Bool.not_eq_true', rgbEncodeRefuses_eq_false_iff, wellFormed_rgbEncode_iff]

theorem rgbDecodeRefuses_eq_false_iff (payload : List Byte) :
    rgbDecodeRefuses payload = false ↔ ∃ (count : Byte) (entries : List Byte),
      payload = 0x01#8 :: count :: entries ∧ count.toNat ≤ 62 ∧ entries.length = 4 * count.toNat := by
  match payload with
  | [] | [_] => simp [rgbDecodeRefuses]
  | tag :: count :: entries => simp [rgbDecodeRefuses, Nat.add_comm 2, and_assoc]

/-! ## Pixels and their payload -/

theorem rgbPayload_length (pixels : List Pixel) : (rgbPayload pixels).length = 2 + 4 * pixels.length := by
  rw [rgbPayload, List.length_append, length_pixelEntries]
  rfl

theorem toNat_countByte {pixels : List Pixel} (hlen : pixels.length ≤ 62) :
    (BitVec.ofNat 8 pixels.length).toNat = pixels.length := by
  rw [BitVec.toNat_ofNat, Nat.mod_eq_of_lt (by omega)]

theorem rgbDecodeRefuses_rgbPayload {pixels : List Pixel} (h : rgbEncodeRefuses pixels = false) :
    rgbDecodeRefuses (rgbPayload pixels) = false := by
  obtain ⟨hlen, -⟩ := (rgbEncodeRefuses_eq_false_iff pixels).mp h
  rw [rgbDecodeRefuses_eq_false_iff]
  refine ⟨BitVec.ofNat 8 pixels.length, pixels.flatMap pixelBytes, rfl, ?_⟩
  rw [toNat_countByte hlen]
  exact ⟨hlen, length_pixelEntries pixels⟩

theorem readPixels_rgbPayload {pixels : List Pixel} (h : rgbEncodeRefuses pixels = false) :
    readPixels ((rgbPayload pixels).drop 2) = pixels := by
  obtain ⟨-, hids⟩ := (rgbEncodeRefuses_eq_false_iff pixels).mp h
  exact readPixels_pixelEntries hids

theorem rgbEncodeRefuses_readPixels {payload : List Byte} (h : rgbDecodeRefuses payload = false) :
    rgbEncodeRefuses (readPixels (payload.drop 2)) = false := by
  obtain ⟨count, entries, rfl, hmax, hlen⟩ := (rgbDecodeRefuses_eq_false_iff payload).mp h
  rw [rgbEncodeRefuses_eq_false_iff]
  exact ⟨(length_readPixels hlen).trans_le hmax, idAdmitted_of_mem_readPixels entries⟩

theorem rgbPayload_readPixels {payload : List Byte} (h : rgbDecodeRefuses payload = false) :
    rgbPayload (readPixels (payload.drop 2)) = payload := by
  obtain ⟨count, entries, rfl, -, hlen⟩ := (rgbDecodeRefuses_eq_false_iff payload).mp h
  simp [rgbPayload, length_readPixels hlen, pixelEntries_readPixels ⟨_, hlen⟩]

/-! ## The two commands' answers -/

theorem respond_inj {status status' : Status} {data data' : Data} {s : State} :
    respond status data s = respond status' data' s ↔ status = status' ∧ data = data' := by
  simp [respond]

theorem exec_rgbEncode_accepted {pixels : List Pixel} (s : State) (h : rgbEncodeRefuses pixels = false) :
    exec (.rgbEncode pixels) s = .next (respond .ok (.bytes (rgbPayload pixels)) s) := by
  rw [exec_rgbEncode, h]
  rfl

theorem exec_rgbEncode_refused {pixels : List Pixel} (s : State) (h : rgbEncodeRefuses pixels = true) :
    exec (.rgbEncode pixels) s = .next (raiseInvalidArgument s) := by
  rw [exec_rgbEncode, if_pos h]

theorem exec_rgbEncode_eq_ok_iff (pixels : List Pixel) (payload : List Byte) (s : State) :
    exec (.rgbEncode pixels) s = .next (respond .ok (.bytes payload) s) ↔
      rgbEncodeRefuses pixels = false ∧ rgbPayload pixels = payload := by
  rw [exec_rgbEncode]
  cases rgbEncodeRefuses pixels <;> simp [raiseInvalidArgument, respond_inj]

theorem exec_rgbDecode_eq_ok_iff (payload : List Byte) (pixels : List Pixel) (s : State) :
    exec (.rgbDecode payload) s = .next (respond .ok (.pixels pixels) s) ↔
      rgbDecodeRefuses payload = false ∧ readPixels (payload.drop 2) = pixels := by
  rw [exec_rgbDecode]
  cases rgbDecodeRefuses payload <;> simp [raiseInvalidArgument, respond_inj]

/-- R147: `RGB_ENCODE` turns these pixels into this payload exactly where `RGB_DECODE` turns the payload into the pixels. -/
theorem exec_rgbEncode_eq_ok_iff_exec_rgbDecode (pixels : List Pixel) (payload : List Byte) (s : State) :
    exec (.rgbEncode pixels) s = .next (respond .ok (.bytes payload) s) ↔
      exec (.rgbDecode payload) s = .next (respond .ok (.pixels pixels) s) := by
  rw [exec_rgbEncode_eq_ok_iff, exec_rgbDecode_eq_ok_iff]
  constructor
  · rintro ⟨h, rfl⟩
    exact ⟨rgbDecodeRefuses_rgbPayload h, readPixels_rgbPayload h⟩
  · rintro ⟨h, rfl⟩
    exact ⟨rgbEncodeRefuses_readPixels h, rgbPayload_readPixels h⟩

/-! ## The pseudo-commands' first command (30_encoding.md R74) -/

section
variable {first : Instr} {s : State} (next : List Byte → State → Host.Outcome State Fault Refusal)

theorem thenOnOk_of_ok {bytes : List Byte} (h : exec first s = .next (respond .ok (.bytes bytes) s)) :
    thenOnOk first next s = next bytes (respond .ok (.bytes bytes) s) := by
  simp [thenOnOk, h]

theorem thenOnOk_of_refused (h : exec first s = .next (raiseInvalidArgument s)) :
    thenOnOk first next s = .next (raiseInvalidArgument s) := by
  simp [thenOnOk, h]

end

theorem rgbFrame_refused {pixels : List Pixel} (s : State) (h : rgbEncodeRefuses pixels = true) :
    rgbFrame pixels s = .next (raiseInvalidArgument s) :=
  thenOnOk_of_refused _ (exec_rgbEncode_refused s h)

/-- R143: the payload is at most 250 bytes long, so its frame is always built. -/
theorem rgbFrame_accepted {pixels : List Pixel} (s : State) (h : rgbEncodeRefuses pixels = false) :
    rgbFrame pixels s = .next (respond .ok (.bytes (frameBytes s.crcTable 0x0B#8 (rgbPayload pixels)))
      (respond .ok (.bytes (rgbPayload pixels)) s)) := by
  obtain ⟨hlen, -⟩ := (rgbEncodeRefuses_eq_false_iff pixels).mp h
  have hfits : (rgbPayload pixels).length ≤ 251 := by rw [rgbPayload_length]; omega
  rw [rgbFrame, thenOnOk_of_ok _ (exec_rgbEncode_accepted s h), exec_encode_of_le _ _ hfits, respond_crcTable]

theorem respond_respond (status status' : Status) (data data' : Data) (s : State) :
    respond status' data' (respond status data s) =
      { s with responses := s.responses ++ [⟨status, data⟩, ⟨status', data'⟩] } := by
  simp [respond]

/-! ## The statements -/

/-- Settles O24: what each command accepts and answers is accepted by the other and answered with the first one's operand. -/
theorem rgbRoundTrip : Obligations.RgbRoundTrip := by
  intro pixels payload s
  have hiff := exec_rgbEncode_eq_ok_iff_exec_rgbDecode pixels payload s
  exact ⟨hiff.mp, hiff.mpr⟩

/-- Settles O25: the operands the table admits are those `RGB_ENCODE` accepts, and their payload fits a frame. -/
theorem rgbFrameOfAcceptedPixels : Obligations.RgbFrameOfAcceptedPixels := by
  intro pixels s
  have hcheck := rgbEncodeRefuses_eq_not_wellFormed pixels
  constructor
  · intro hwf
    rw [rgbFrame_accepted s (by rw [hcheck, hwf]; rfl), respond_respond]
  · intro hwf
    exact rgbFrame_refused s (by rw [hcheck, hwf]; rfl)

end Sys2Proof.Machine

/-! # The frame receiver (43_frame_receiver.md)

The layer first: what one byte does in each state of the receiver, what each command makes of the receiver, frames whose checksum
is wrong, the way back to `AWAIT_START1`, and the bytes of the frame in progress. After it the statements of the family. -/

namespace Sys2Proof.Machine

/-! ## One byte fed -/

/-- `RX_FEED` commits what the receiver's step gives: its registers and its response, and nothing else. -/
theorem exec_rxFeed_of_feed {s : State} {b : Byte} {rx : Receiver} {resp : Response}
    (h : feed s.crcTable s.rx b = (rx, resp)) :
    exec (.rxFeed b) s = .next { s with rx := rx, responses := s.responses ++ [resp] } := by
  rw [exec_rxFeed, feedByte, h]
  rfl

/-- Scanning, the receiver's step moves `rx_state` at most as far as `AWAIT_FUNCTION`, writes no other register and answers
`NO_FRAME` (R161, R162). -/
theorem feed_of_scan (T : CrcTable) {rx : Receiver} (b : Byte)
    (hst : rx.state = .awaitStart1 ∨ rx.state = .awaitStart2) :
    ∃ st, (st = .awaitStart1 ∨ st = .awaitStart2 ∨ st = .awaitFunction) ∧
      feed T rx b = ({ rx with state := st }, noFrame) := by
  obtain ⟨st, -, h⟩ | ⟨h, -⟩ | ⟨h, -⟩ | ⟨h, -⟩ | ⟨h, -⟩ | ⟨h, -⟩ | ⟨h, -⟩ := feed_cases T rx b
  · exact ⟨st, h⟩
  all_goals simp [h] at hst

/-! ## What a command makes of the receiver, by its code (30_encoding.md R70) -/

theorem code_of_decodeCommand_rxReset {r : Request} (h : decodeCommand r = .ok .rxReset) : r.code = 0x06#8 := by
  unfold decodeCommand at h
  split at h <;> cases h
  exact BitVec.toNat_inj.mp ‹_›

section
variable {s t : State} {r : Request} {rest : List Request} (hp : s.pending = r :: rest) (hstep : step s = .next t)
include hp hstep

theorem step_rx_of_feedCode (hcode : r.code = 0x05#8) : t.rx = (feed s.crcTable s.rx r.operands.byte).1 := by
  have hd : decodeCommand r = .ok (.rxFeed r.operands.byte) := by simp [decodeCommand, hcode, operandByte]
  cases (step_of_decodeCommand hp hd).symm.trans hstep
  rfl

theorem step_rx_of_resetCode (hcode : r.code = 0x06#8) : t.rx = clearedReceiver := by
  have hd : decodeCommand r = .ok .rxReset := by simp [decodeCommand, hcode]
  cases (step_of_decodeCommand hp hd).symm.trans hstep
  rfl

/-- R182: the codecs, `RX_STATE` and the undefined codes leave the receiver as it was. -/
theorem step_rx_of_otherCode (hfeed : r.code ≠ 0x05#8) (hreset : r.code ≠ 0x06#8) : t.rx = s.rx := by
  cases hd : decodeCommand r with
  | error e =>
    have hill : decode s.rx.state r = .error e := by simp [decode, hd]
    cases (step_of_illegal hp hill).symm.trans hstep
    rfl
  | ok i =>
    have he := (step_of_decodeCommand hp hd).symm.trans hstep
    obtain hi | rfl | rfl | ⟨b, hb⟩ := isCodec_or_receiver i
    · obtain ⟨resp, hr⟩ := exec_of_isCodec hi s.crcTable
      cases (hr (setPending rest s) rfl).symm.trans he
      rfl
    · cases he
      rfl
    · exact absurd (code_of_decodeCommand_rxReset hd) hreset
    · rw [fedByte_of_decodeCommand hd, if_neg hfeed] at hb
      cases hb

end

/-! ## A frame with a wrong checksum (R168, R176) -/

/-- The answers to the bytes of a frame with `n` payload bytes whose last byte is not the checksum of its span. -/
def mismatchAnswers (n : Nat) : List Response :=
  List.replicate (n + 4) noFrame ++ [{ status := .checksumMismatch, data := .empty }]

theorem feedAll_wireFrame_of_ne {T : CrcTable} {rx : Receiver} {func checksum : Byte} {payload : List Byte}
    (hlen : payload.length ≤ 251) (hst : rx.state = .awaitStart1 ∨ rx.state = .awaitStart2)
    (hne : checksum ≠ crc8 T (frameSpan func payload)) :
    feedAll T rx (wireFrame func payload checksum) = (clearedReceiver, mismatchAnswers payload.length) := by
  rw [wireFrame, feedAll_append, feedAll_beforeChecksum T func payload hlen hst, feedAll_cons,
    feed_of_awaitChecksum rfl, feedChecksum, if_neg hne]
  rfl

/-- From its function byte on a frame is a span with its own checksum (41_frame_encoder.md R126, for every table). -/
theorem crc8_frameBytes_drop_two (T : CrcTable) (func : Byte) (payload : List Byte) :
    crc8 T ((frameBytes T func payload).drop 2) = tableEntry T 0#8 := by
  rw [frameBytes_drop_two, crc8_append_own_checksum]

section
variable {T : CrcTable} (hT : Function.Injective (tableEntry T))
include hT

/-- Over a table without repeated entries the fold keeps unequal accumulators apart. -/
theorem crc8From_injective (data : List Byte) : Function.Injective (crc8From T · data) := by
  induction data with
  | nil => exact Function.injective_id
  | cons b data ih => exact fun acc acc' h => (BitVec.xor_left_inj b).mp (hT (ih h))

/-- Over such a table a span's checksum changes with any one of its bytes. -/
theorem crc8From_set_ne (data : List Byte) (acc : Byte) {i : Nat} {b : Byte} (hi : i < data.length) (hb : b ≠ data[i]) :
    crc8From T acc (data.set i b) ≠ crc8From T acc data := by
  induction data generalizing acc i with
  | nil => cases hi
  | cons d data ih =>
    cases i with
    | zero => exact fun h => hb ((BitVec.xor_right_inj acc).mp (hT (crc8From_injective hT data h)))
    | succ i => exact ih _ (Nat.lt_of_succ_lt_succ hi) hb

/-- A frame with any one byte changed but those of the start pair and the length byte is a frame of the same length whose
checksum is wrong: were it right, both frames would fold to entry 0 of the table (40_crc8.md R106(c)). -/
theorem exists_wireFrame_of_set (func : Byte) {payload : List Byte} (hlen : payload.length ≤ 251) {i : Nat} {b : Byte}
    (hi : i = 2 ∨ 4 ≤ i) (hlt : i < (frameBytes T func payload).length) (hb : b ≠ (frameBytes T func payload)[i]) :
    ∃ (func' : Byte) (payload' : List Byte) (checksum : Byte), payload'.length = payload.length ∧
      (frameBytes T func payload).set i b = wireFrame func' payload' checksum ∧
      checksum ≠ crc8 T (frameSpan func' payload') := by
  have hsame : ∀ j, i ≠ j → ((frameBytes T func payload).set i b)[j]? = (frameBytes T func payload)[j]? :=
    fun j hj => List.getElem?_set_ne hj
  have hlength : payload.length = (((frameBytes T func payload).set i b).getD 3 0#8).toNat := by
    rw [List.getD_eq_getElem?_getD, hsame 3 (by omega)]
    exact (toNat_lengthByte hlen).symm
  obtain ⟨func', payload', checksum, hlen', hset⟩ := exists_wireFrame (hsame 0 (by omega)) (hsame 1 (by omega)) hlength
    (by rw [List.length_set, frameBytes_length])
  refine ⟨func', payload', checksum, hlen', hset, fun hchecksum => ?_⟩
  have hfold := crc8_frameBytes_drop_two T func' payload'
  rw [frameBytes_eq_wireFrame, ← hchecksum, ← hset, List.drop_set, if_neg (by omega),
    ← crc8_frameBytes_drop_two T func payload] at hfold
  refine crc8From_set_ne hT _ _ ?_ ?_ hfold
  · rw [List.length_drop]; omega
  · simpa [show 2 + (i - 2) = i by omega] using hb

end

/-- One turn of R101's loop run backwards: the high bit of the result is the bit that was shifted out. -/
def crcUnshift (c : Byte) : Byte := if c.msb then ((c ^^^ 0x8C#8) <<< 1) ||| 1#8 else c <<< 1

theorem crcUnshift_crcShift : Function.LeftInverse crcUnshift crcShift := by
  unfold Function.LeftInverse
  decide

/-- Every turn of R101's loop can be run backwards, so no two indices give one entry. -/
theorem crcLoop_injective : Function.Injective crcLoop := by
  have h := crcUnshift_crcShift.injective
  exact h.comp (h.comp (h.comp (h.comp (h.comp (h.comp (h.comp h))))))

theorem tableEntry_dallasMaximTable (i : Byte) : tableEntry dallasMaximTable i = crcLoop i := by
  revert i
  decide

theorem tableEntry_dallasMaximTable_injective : Function.Injective (tableEntry dallasMaximTable) := by
  rw [funext tableEntry_dallasMaximTable]
  exact crcLoop_injective

theorem xor_bit_ne (b : Byte) (k : Fin 8) : b ^^^ 1#8 <<< k.val ≠ b := by
  have hbit : 1#8 <<< k.val ≠ 0#8 := by
    revert k
    decide
  exact fun h => hbit ((BitVec.xor_right_inj b).mp (h.trans BitVec.xor_zero.symm))

/-! ## The way back to `AWAIT_START1`, and out of the scan (R173) -/

/-- The most bytes that a receiver between its start pair and the end of its frame still takes; 0 where it scans. -/
def Receiver.bytesToGo (rx : Receiver) : Nat :=
  match rx.state with
  | .awaitStart1 => 0
  | .awaitStart2 => 0
  | .awaitFunction => 254
  | .awaitLength => 253
  | .awaitData => rx.remaining.toNat + 1
  | .awaitChecksum => 1

section
variable {T : CrcTable} {rx : Receiver}

theorem Receiver.bytesToGo_pos (h1 : rx.state ≠ .awaitStart1) (h2 : rx.state ≠ .awaitStart2) : 0 < rx.bytesToGo := by
  cases hst : rx.state <;> simp_all [Receiver.bytesToGo]

theorem Receiver.bytesToGo_le (h : rx.Inv T) : rx.bytesToGo ≤ 254 := by
  cases hst : rx.state with
  | awaitData =>
    obtain ⟨-, hlen, -, hrem, -⟩ := (Receiver.inv_iff_of_awaitData hst).mp h
    simp only [Receiver.bytesToGo, hst]
    omega
  | _ => simp [Receiver.bytesToGo, hst]

/-- Whatever byte arrives, a receiver in a field state comes back to `AWAIT_START1` or one byte nearer to it. -/
theorem feed_bytesToGo (b : Byte) (h : rx.Inv T) (hpos : 0 < rx.bytesToGo) :
    (feed T rx b).1.state = .awaitStart1 ∨
      (0 < (feed T rx b).1.bytesToGo ∧ (feed T rx b).1.bytesToGo < rx.bytesToGo) := by
  obtain ⟨_, hst, -, hf⟩ | ⟨hst, hf⟩ | ⟨hst, hb, hf⟩ | ⟨hst, hf⟩ | ⟨-, -, hf⟩ | ⟨-, -, hf⟩ | ⟨-, -, hf⟩ := feed_cases T rx b
  · obtain hst | hst := hst <;> simp [Receiver.bytesToGo, hst] at hpos
  · simp [hf, hst, Receiver.bytesToGo]
  · right
    have hgo : rx.bytesToGo = 253 := by simp only [Receiver.bytesToGo, hst]
    rw [hf, hgo]
    by_cases h0 : b = 0#8
    · simp [h0, Receiver.bytesToGo]
    · simp [h0, Receiver.bytesToGo]; omega
  · right
    obtain ⟨-, -, hrem, -⟩ := (Receiver.inv_iff_of_awaitData hst).mp h
    have hgo : rx.bytesToGo = rx.remaining.toNat + 1 := by simp only [Receiver.bytesToGo, hst]
    have hdec : (rx.remaining - 1#8).toNat = rx.remaining.toNat - 1 := by bv_omega
    rw [hf, hgo]
    by_cases h0 : rx.remaining - 1#8 = 0#8
    · simp [h0, Receiver.bytesToGo]; omega
    · simp [h0, hdec, Receiver.bytesToGo]; omega
  all_goals exact .inl (by rw [hf]; rfl)

/-- R173(a): `bytesToGo` bytes are enough. -/
theorem feedAll_reaches_awaitStart1 (bytes : List Byte) (h : rx.Inv T) (hpos : 0 < rx.bytesToGo)
    (hle : rx.bytesToGo ≤ bytes.length) :
    ∃ k, 1 ≤ k ∧ k ≤ bytes.length ∧ (feedAll T rx (bytes.take k)).1.state = .awaitStart1 := by
  induction bytes generalizing rx with
  | nil => exact absurd hle (not_le.mpr hpos)
  | cons b bytes ih =>
    rw [List.length_cons] at hle ⊢
    obtain hdone | ⟨hpos', hlt⟩ := feed_bytesToGo b h hpos
    · exact ⟨1, le_rfl, by omega, hdone⟩
    · obtain ⟨k, -, hk, hend⟩ := ih (feed_inv b h) hpos' (by omega)
      exact ⟨k + 1, by omega, by omega, hend⟩

/-- R173(c): the receiver leaves the scan on the pair, or has left it on bytes before the pair. -/
theorem feedAll_reaches_awaitFunction (before after : List Byte)
    (hst : rx.state = .awaitStart1 ∨ rx.state = .awaitStart2) :
    ∃ k, k ≤ before.length + 2 ∧
      (feedAll T rx ((before ++ [0xAA#8, 0x55#8] ++ after).take k)).1.state = .awaitFunction := by
  induction before generalizing rx with
  | nil => exact ⟨2, le_rfl, congrArg (·.1.state) (feedAll_startPair T hst)⟩
  | cons b before ih =>
    obtain ⟨st, hcases, hf⟩ := feed_of_scan T b hst
    by_cases hfunc : st = .awaitFunction
    · exact ⟨1, by omega, congrArg (·.1.state) hf |>.trans hfunc⟩
    · have hscan : (feed T rx b).1.state = .awaitStart1 ∨ (feed T rx b).1.state = .awaitStart2 := by
        simpa [hf, hfunc] using hcases
      obtain ⟨k, hk, hend⟩ := ih hscan
      exact ⟨k + 1, by simpa using hk, hend⟩

end

/-! ## The bytes of the frame in progress -/

/-- The bytes of the frame in progress, as the registers hold them. -/
def Receiver.taken (rx : Receiver) : List Byte :=
  match rx.state with
  | .awaitStart1 => []
  | .awaitStart2 => [0xAA#8]
  | .awaitFunction => [0xAA#8, 0x55#8]
  | .awaitLength => [0xAA#8, 0x55#8, rx.func]
  | .awaitData => [0xAA#8, 0x55#8, rx.func, rx.len] ++ rx.buf
  | .awaitChecksum => [0xAA#8, 0x55#8, rx.func, rx.len] ++ rx.buf

theorem feed_taken (T : CrcTable) (rx : Receiver) (b : Byte) : (feed T rx b).1.taken <:+ rx.taken ++ [b] := by
  cases hst : rx.state with
  | awaitStart1 =>
    rw [feed_of_awaitStart1 hst]
    by_cases hb : b = Config.start1 <;> simp [feedStart1, hb, Receiver.taken, hst]
  | awaitStart2 =>
    rw [feed_of_awaitStart2 hst]
    by_cases hb : b = Config.start2
    · simp [feedStart2, hb, Receiver.taken, hst]
    · by_cases hb' : b = Config.start1 <;> simp [feedStart2, hb, hb', Receiver.taken, hst]
  | awaitFunction =>
    rw [feed_of_awaitFunction hst]
    simp [feedFunction, Receiver.taken, hst]
  | awaitLength =>
    rw [feed_of_awaitLength hst]
    by_cases hb : Config.maxPayload < b.toNat
    · simp [feedLength, hb, Receiver.taken, clearedReceiver]
    · by_cases h0 : b = 0#8 <;> simp [feedLength, hb, h0, Receiver.taken, hst]
  | awaitData =>
    rw [feed_of_awaitData hst]
    by_cases h0 : rx.remaining - 1#8 = 0#8 <;> simp [feedData, h0, Receiver.taken, hst]
  | awaitChecksum =>
    rw [feed_of_awaitChecksum hst]
    by_cases hb : b = rx.crc <;> simp [feedChecksum, hb, Receiver.taken, clearedReceiver]

theorem Receiver.live_of_inv {T : CrcTable} {rx : Receiver} (h : rx.Inv T) : rx.live = rx := by
  obtain ⟨st, func, len, rem, buf, crc⟩ := rx
  cases st <;> simp_all [Receiver.Inv, Receiver.live, clearedReceiver]

/-- The receiver's step keeps R24 for the live registers, whatever the dead ones hold. -/
theorem feed_live_inv {T : CrcTable} {rx : Receiver} (b : Byte) (h : rx.live.Inv T) : (feed T rx b).1.live.Inv T := by
  have hnext := feed_inv b h
  rwa [← (feed_live T rx b).1, Receiver.live_of_inv hnext]

/-- The frame in progress was received: after the bytes `fed` the live registers meet R24, and the bytes they hold of the frame
in progress are the last ones of `fed`. -/
structure Receiver.Received (T : CrcTable) (fed : List Byte) (rx : Receiver) : Prop where
  inv : rx.live.Inv T
  taken : rx.taken <:+ fed

namespace Receiver.Received
variable {T : CrcTable} {fed : List Byte} {rx : Receiver}

theorem of_awaitStart1 (hst : rx.state = .awaitStart1) : rx.Received T fed where
  inv := by rw [Receiver.live_of_awaitStart1 hst]; exact clearedReceiver_inv T
  taken := by simp only [Receiver.taken, hst]; exact List.nil_suffix

theorem feed (h : rx.Received T fed) (b : Byte) : (feed T rx b).1.Received T (fed ++ [b]) where
  inv := feed_live_inv b h.inv
  taken := (feed_taken T rx b).trans ((List.suffix_append_inj_of_length_eq rfl).mpr ⟨h.taken, rfl⟩)

/-- In `AWAIT_CHECKSUM` the byte awaited completes the encoder's frame. -/
theorem frameBytes_suffix (h : rx.Received T fed) (hst : rx.state = .awaitChecksum) :
    rx.buf.length ≤ 251 ∧ frameBytes T rx.func rx.buf <:+ fed ++ [rx.crc] := by
  have hlive : rx.live = rx := by simp only [Receiver.live, hst]
  obtain ⟨hlen, -, hbuf, hcrc⟩ := (Receiver.inv_iff_of_awaitChecksum hst).mp (hlive ▸ h.inv)
  have hl : BitVec.ofNat 8 rx.buf.length = rx.len := by rw [hbuf]; exact BitVec.ofNat_toNat 8 rx.len
  have hframe : frameBytes T rx.func rx.buf = rx.taken ++ [rx.crc] := by
    rw [frameBytes_eq_span, frameSpan, hl, hcrc]
    simp [Receiver.taken, hst]
  exact ⟨hbuf ▸ hlen, hframe ▸ (List.suffix_append_inj_of_length_eq rfl).mpr ⟨h.taken, rfl⟩⟩

end Receiver.Received

theorem step_received {s t : State} {fed : List Byte} (h : s.rx.Received s.crcTable fed) (hstep : step s = .next t) :
    t.rx.Received s.crcTable (fed ++ bytesFed (s.pending.take 1)) := by
  cases hp : s.pending with
  | nil =>
    cases (step_of_empty hp).symm.trans hstep
    simpa using h
  | cons r rest =>
    have hfed : bytesFed ((r :: rest).take 1) = if r.code = 0x05#8 then [r.operands.byte] else [] := by
      by_cases hcode : r.code = 0x05#8 <;> simp [bytesFed, hcode]
    rw [hfed]
    by_cases hfeed : r.code = 0x05#8
    · rw [if_pos hfeed, step_rx_of_feedCode hp hstep hfeed]
      exact h.feed _
    · rw [if_neg hfeed, List.append_nil]
      by_cases hreset : r.code = 0x06#8
      · rw [step_rx_of_resetCode hp hstep hreset]
        exact .of_awaitStart1 rfl
      · rwa [step_rx_of_otherCode hp hstep hfeed hreset]

theorem step_pending {s t : State} (h : step s = .next t) : t.pending = s.pending.drop 1 := by
  cases hp : s.pending with
  | nil => cases (step_of_empty hp).symm.trans h; exact hp
  | cons r rest =>
    obtain ⟨rx, resp, hs⟩ := step_answers hp
    cases hs.symm.trans h
    rfl

theorem exists_step_of_run_succ {k : Nat} {s t : State} (h : run (k + 1) s = .next t) :
    ∃ u, step s = .next u ∧ run k u = .next t := by
  rw [run_succ] at h
  split at h
  · exact ⟨_, ‹_›, h⟩
  · cases h
  · cases h

/-- A run keeps what its steps keep: the table, the port's order, and that the frame in progress was received. -/
theorem run_received {k : Nat} {s t : State} {fed : List Byte} (h : s.rx.Received s.crcTable fed)
    (hrun : run k s = .next t) :
    t.crcTable = s.crcTable ∧ t.pending = s.pending.drop k ∧
      t.rx.Received s.crcTable (fed ++ bytesFed (s.pending.take k)) := by
  induction k generalizing s fed with
  | zero => cases hrun; simpa using h
  | succ k ih =>
    obtain ⟨u, hstep, hrest⟩ := exists_step_of_run_succ hrun
    have hu := step_received h hstep
    rw [← step_crcTable hstep] at hu ⊢
    obtain ⟨htable, hpend, hrec⟩ := ih hu hrest
    rw [step_pending hstep] at hpend hrec
    refine ⟨htable, by rw [hpend, List.drop_drop, Nat.add_comm], ?_⟩
    rwa [Nat.add_comm, List.take_add, bytesFed_append, ← List.append_assoc]

/-! ## The statements -/

/-- Settles O49: the run feeds the frame's bytes, and the receiver answers them as `frameAnswers` says. -/
theorem frameRoundTrip : Obligations.FrameRoundTrip := by
  intro s func payload rest hlen hst hp
  have hrun := run_of_feedRequests _ s rest hp
  rw [frameBytes_length, feedAll_frameBytes s.crcTable func payload hlen hst] at hrun
  rw [hrun, List.append_assoc]
  rfl

/-- Settles O32: R24 has `1 <= rx_remaining` on entry, and the buffer short of `rx_len` by that count. -/
theorem feedInAwaitData : Obligations.FeedInAwaitData := by
  intro b s hinv hst
  obtain ⟨-, hlen, hrem, hle, hbuf, -⟩ := (Receiver.inv_iff_of_awaitData hst).mp hinv
  refine ⟨s.rx.remaining - 1#8, by bv_omega, ?_, hlen, exec_rxFeed_of_feed (feed_of_awaitData hst)⟩
  rw [List.length_append, List.length_singleton]
  omega

/-- Settles O45: the receiver by the code of the command stepped on. -/
theorem onlyFeedAndResetChangeTheReceiver : Obligations.OnlyFeedAndResetChangeTheReceiver :=
  fun _ _ _ _ hp hfeed hreset hstep => step_rx_of_otherCode hp hstep hfeed hreset

/-- Settles O51: `ENCODE` answers the frame, and the receiver delivers it; or it refuses, and nothing is fed. -/
theorem sendAndReceiveLoopsBack : Obligations.SendAndReceiveLoopsBack := by
  intro s func payload
  constructor
  · intro hlen hst
    rw [sendAndReceive, thenOnOk_of_ok rxFeeds (exec_encode_of_le func s hlen), rxFeeds_eq_feedAll, respond_crcTable,
      respond_rx, feedAll_frameBytes s.crcTable func payload hlen (.inl hst), List.append_assoc]
    rfl
  · exact fun hlen => thenOnOk_of_refused rxFeeds (exec_encode_of_lt func s hlen)

/-- Settles O52: the flipped frame is a frame with a wrong checksum; its mismatch leaves the receiver ready for the next. -/
theorem singleBitCorruptionIsCaught : Obligations.SingleBitCorruptionIsCaught := by
  rintro s func func' payload payload' rest i k hT hlen hlen' hst hi hlt frame rfl hp
  have hlt' : i < (frameBytes dallasMaximTable func payload).length := by rwa [frameBytes_length]
  rw [List.getD_eq_getElem _ _ hlt'] at hp
  obtain ⟨func₁, payload₁, checksum, hlen₁, hset, hne⟩ :=
    exists_wireFrame_of_set tableEntry_dallasMaximTable_injective func hlen hi hlt' (xor_bit_ne _ k)
  have hrun := run_of_feedRequests _ s rest hp
  rw [List.length_append, List.length_set, frameBytes_length, frameBytes_length, hT, hset, feedAll_append,
    feedAll_wireFrame_of_ne (hlen₁ ▸ hlen) (.inl hst) hne, feedAll_frameBytes _ _ _ hlen' (.inl rfl), hlen₁] at hrun
  rw [hrun]
  simp [mismatchAnswers, frameAnswers, noFrame, clearedReceiver, hT]

/-- Settles O54: `bytesToGo` is positive in a field state and at most 254. -/
theorem fieldStatesRecoverWithin254Bytes : Obligations.FieldStatesRecoverWithin254Bytes := by
  intro s bytes hinv h1 h2 hlen
  obtain ⟨k, hk1, hk, hend⟩ := feedAll_reaches_awaitStart1 bytes hinv (Receiver.bytesToGo_pos h1 h2)
    (hlen ▸ Receiver.bytesToGo_le hinv)
  exact ⟨k, _, hk1, hlen ▸ hk, rxFeeds_eq_feedAll _ s, hend⟩

/-- Settles O55: `RX_FEEDS` of those bytes, and the scan left on the pair or before it. -/
theorem startPairEndsTheScan : Obligations.StartPairEndsTheScan := by
  intro s before after hst
  obtain ⟨k, hk, hend⟩ := feedAll_reaches_awaitFunction (T := s.crcTable) before after hst
  exact ⟨k, _, hk, rxFeeds_eq_feedAll _ s, hend⟩

/-- Settles O59: the frame in progress was received, and the checksum byte that delivers it completes the encoder's frame. -/
theorem deliveredFramesWereReceivedWhole : Obligations.DeliveredFramesWereReceivedWhole := by
  intro s t u k frame hst hrun hstep hresp
  obtain ⟨-, hpend, hrec⟩ := run_received (fed := []) (.of_awaitStart1 hst) hrun
  cases hp : t.pending with
  | nil =>
    cases (step_of_empty hp).symm.trans hstep
    simp at hresp
  | cons r rest =>
    obtain ⟨hcode, hchecksum, hbyte, rfl⟩ := (step_frame_iff hp hstep hresp frame).mp rfl
    have hfed : bytesFed (s.pending.take (k + 1)) = bytesFed (s.pending.take k) ++ [t.rx.crc] := by
      rw [List.take_add, ← hpend, hp, bytesFed_append]
      simp [bytesFed, hcode, hbyte]
    rw [hfed]
    exact hrec.frameBytes_suffix hchecksum

/-- Settles O26: the two branches of the arm of `AWAIT_START1`. -/
theorem feedInAwaitStart1 : Obligations.FeedInAwaitStart1 := by
  intro b s hst
  refine exec_rxFeed_of_feed ((feed_of_awaitStart1 hst).trans ?_)
  by_cases hb : b = 0xAA#8
  · rw [feedStart1, if_pos hb, if_pos hb]; rfl
  · rw [feedStart1, if_neg hb, if_neg hb]; rfl

/-- Settles O27: the three branches of the arm of `AWAIT_START2`. -/
theorem feedInAwaitStart2 : Obligations.FeedInAwaitStart2 := by
  intro b s hst
  refine exec_rxFeed_of_feed ((feed_of_awaitStart2 hst).trans ?_)
  by_cases hb : b = 0x55#8
  · rw [feedStart2, if_pos hb, if_pos hb]; rfl
  · rw [feedStart2, if_neg hb, if_neg hb]
    by_cases hb' : b = 0xAA#8
    · rw [if_pos hb', if_pos hb']; rfl
    · rw [if_neg hb', if_neg hb']; rfl

/-- Settles O28: the fold's first update looks up `0 XOR b`. -/
theorem feedInAwaitFunction : Obligations.FeedInAwaitFunction := by
  intro b s hst
  refine exec_rxFeed_of_feed ((feed_of_awaitFunction hst).trans ?_)
  rw [feedFunction, crc8Update_eq, BitVec.zero_xor]
  rfl

/-- Settles O30: the arm of `AWAIT_LENGTH` where the check on the length passes. -/
theorem feedInAwaitLength : Obligations.FeedInAwaitLength :=
  fun _ _ hst hb => exec_rxFeed_of_feed ((feed_of_awaitLength hst).trans (if_neg (not_lt.mpr hb)))

/-- Settles O31: the arm of `AWAIT_LENGTH` where the check on the length fails. -/
theorem lengthErrorDiscardsTheFrame : Obligations.LengthErrorDiscardsTheFrame :=
  fun _ _ hst hb => exec_rxFeed_of_feed ((feed_of_awaitLength hst).trans (if_pos hb))

/-- Settles O33: the arm of `AWAIT_CHECKSUM` on the byte it compares with. -/
theorem matchingChecksumDeliversTheFrame : Obligations.MatchingChecksumDeliversTheFrame :=
  fun _ hst => exec_rxFeed_of_feed ((feed_of_awaitChecksum hst).trans (if_pos rfl))

/-- Settles O34: the arm of `AWAIT_CHECKSUM` on any other byte. -/
theorem checksumMismatchDiscardsTheFrame : Obligations.ChecksumMismatchDiscardsTheFrame :=
  fun _ _ hst hb => exec_rxFeed_of_feed ((feed_of_awaitChecksum hst).trans (if_neg hb))

/-- Settles O35: what `rx_clear()` leaves does not depend on what it clears. -/
theorem rxResetClearsTheReceiver : Obligations.RxResetClearsTheReceiver :=
  fun s => ⟨_, _, exec_rxReset s, rfl, exec_rxReset _, rfl⟩

/-- Settles O36: the answer is `rxStateCode`, whose values are those of R23. -/
theorem rxStateAnswersTheStateCode : Obligations.RxStateAnswersTheStateCode := by
  intro s p hp hst
  have hcode : rxStateCode p.1 = p.2 := by
    clear hst
    revert p
    decide
  rw [exec_rxState, hst, hcode]
  rfl

end Sys2Proof.Machine

/-! # Responses, statuses and errors (60_exceptions.md)

The layer first: the codecs' checks as the table's admitted operands, and, once for every instruction, every byte and every command,
which answer it gives. After it the statements of the family. -/

namespace Sys2Proof.Machine

/-! ## The checks are the opcode table's (30_encoding.md R69) -/

theorem encodeRefuses_eq_not_wellFormed (func : Byte) (payload : List Byte) :
    encodeRefuses payload = !(Instr.encode func payload).wellFormed := by
  simp [encodeRefuses, Instr.wellFormed, ← decide_not]

theorem rgbDecodeRefuses_eq_not_wellFormed (payload : List Byte) :
    rgbDecodeRefuses payload = !(Instr.rgbDecode payload).wellFormed := by
  match payload with
  | [] | [_] => rfl
  | tag :: count :: entries =>
    simp [rgbDecodeRefuses, Instr.wellFormed, rgbPayloadWellFormed, bne, Nat.add_comm 2, ← decide_not]

theorem wellFormed_of_fedByte {i : Instr} {b : Byte} (h : fedByte i = some b) : i.wellFormed = true := by
  cases i
  case encode | rgbEncode | rgbDecode => cases h
  all_goals rfl

/-! ## The three ways an instruction answers -/

/-- The operands are not admitted, and the instruction does nothing but say so. -/
def Refuses (i : Instr) (s : State) : Prop :=
  fedByte i = none ∧ i.wellFormed = false ∧ exec i s = .next (raiseInvalidArgument s)

/-- The operands are admitted, and the answer is `OK` with data that may stand under it. -/
def Completes (i : Instr) (s : State) : Prop :=
  fedByte i = none ∧ i.wellFormed = true ∧ ∃ (rx : Receiver) (data : Data),
    Response.wellFormed { status := .ok, data := data } = true ∧ exec i s = .next (respond .ok data (setReceiver rx s))

/-- A codec's one check decides between the two. -/
theorem refuses_or_completes {i : Instr} {s : State} {refused : Bool} {data : Data} (hi : fedByte i = none)
    (hcheck : refused = !i.wellFormed) (hdata : Response.wellFormed { status := .ok, data := data } = true)
    (he : exec i s = .next (if refused then raiseInvalidArgument s else respond .ok data s)) :
    Refuses i s ∨ Completes i s := by
  cases hwf : i.wellFormed <;> rw [hcheck, hwf] at he
  · exact .inl ⟨hi, hwf, he⟩
  · exact .inr ⟨hi, hwf, s.rx, data, hdata, he⟩

/-- Everything an instruction can answer: a refusal, `OK`, or the receiver's answer to the byte it feeds. -/
theorem exec_answer_cases (i : Instr) (s : State) :
    Refuses i s ∨ Completes i s ∨ ∃ b, fedByte i = some b ∧ exec i s = .next (feedByte b s) := by
  obtain hi | rfl | rfl | ⟨b, hb⟩ := isCodec_or_receiver i
  · rw [← or_assoc]
    left
    obtain ⟨data, rfl⟩ | ⟨func, payload, rfl⟩ | ⟨pixels, rfl⟩ | ⟨payload, rfl⟩ := hi
    · exact .inr ⟨rfl, rfl, s.rx, _, rfl, exec_crc8 s data⟩
    · exact refuses_or_completes rfl (encodeRefuses_eq_not_wellFormed func payload) rfl (exec_encode s func payload)
    · exact refuses_or_completes rfl (rgbEncodeRefuses_eq_not_wellFormed pixels) rfl (exec_rgbEncode s pixels)
    · exact refuses_or_completes rfl (rgbDecodeRefuses_eq_not_wellFormed payload) rfl (exec_rgbDecode s payload)
  · exact .inr (.inl ⟨rfl, rfl, s.rx, _, rfl, exec_rxState s⟩)
  · exact .inr (.inl ⟨rfl, rfl, clearedReceiver, _, rfl, exec_rxReset s⟩)
  · exact .inr (.inr ⟨b, hb, exec_of_fedByte hb s⟩)

/-- Everything the receiver can answer: the three ways a frame ends, each of which clears it, and `NO_FRAME` otherwise. -/
theorem feed_answer_cases (T : CrcTable) (rx : Receiver) (b : Byte) :
    (rx.state = .awaitChecksum ∧ b = rx.crc ∧
        feed T rx b = (clearedReceiver,
          { status := .frameReady, data := .frame { function := rx.func, payload := rx.buf } })) ∨
    (rx.state = .awaitChecksum ∧ b ≠ rx.crc ∧
        feed T rx b = (clearedReceiver, { status := .checksumMismatch, data := .empty })) ∨
    (rx.state = .awaitLength ∧ 251 < b.toNat ∧
        feed T rx b = (clearedReceiver, { status := .lengthError, data := .empty })) ∨
    (rx.state ≠ .awaitChecksum ∧ (rx.state = .awaitLength → b.toNat ≤ 251) ∧ (feed T rx b).2 = noFrame) := by
  obtain ⟨_, hst | hst, -, h⟩ | ⟨hst, h⟩ | ⟨hst, hb, h⟩ | ⟨hst, h⟩ | hlength | hready | hmismatch := feed_cases T rx b
  · simp [hst, h]
  · simp [hst, h]
  · simp [hst, h]
  · simp [hst, h, hb]
  · simp [hst, h]
  · exact .inr (.inr (.inl hlength))
  · exact .inl hready
  · exact .inr (.inl hmismatch)

/-- A step on a command runs an instruction on the state the command has left, or answers `ILLEGAL_COMMAND` there. -/
theorem step_command_cases {s : State} {r : Request} {rest : List Request} (hp : s.pending = r :: rest) :
    (∃ i, step s = exec i (setPending rest s)) ∨ step s = .next (answerIllegalCommand (setPending rest s)) := by
  cases hd : decode s.rx.state r with
  | ok i => exact .inl ⟨i, step_of_decode hp hd⟩
  | error e => exact .inr (step_of_illegal hp hd)

/-- No condition is fatal (R205). -/
theorem exists_step (s : State) : ∃ t, step s = .next t := by
  cases hp : s.pending with
  | nil => exact ⟨s, step_of_empty hp⟩
  | cons r rest =>
    obtain ⟨rx, resp, hs⟩ := step_answers hp
    exact ⟨_, hs⟩

/-! ## The form of an answer (R200, R201) -/

theorem Response.data_eq_empty_of_wellFormed {resp : Response} (h : resp.wellFormed = true) (hok : resp.status ≠ .ok)
    (hready : resp.status ≠ .frameReady) : resp.data = .empty := by
  obtain ⟨status, data⟩ := resp
  cases status with
  | ok => exact absurd rfl hok
  | frameReady => exact absurd rfl hready
  | invalidArgument | noFrame | checksumMismatch | lengthError | illegalCommand =>
    cases data with
    | empty => rfl
    | bytes | pixels | frame => cases h

theorem feed_answer_wellFormed (T : CrcTable) (rx : Receiver) (b : Byte) : (feed T rx b).2.wellFormed = true := by
  obtain ⟨-, -, h⟩ | ⟨-, -, h⟩ | ⟨-, -, h⟩ | ⟨-, -, h⟩ := feed_answer_cases T rx b <;> rw [h] <;> rfl

theorem exec_answer_wellFormed {i : Instr} {s t : State} {resp : Response} (he : exec i s = .next t)
    (hresp : t.responses = s.responses ++ [resp]) : resp.wellFormed = true := by
  obtain ⟨-, -, h⟩ | ⟨-, -, rx, data, hdata, h⟩ | ⟨b, -, h⟩ := exec_answer_cases i s <;>
    cases h.symm.trans he <;> cases List.append_cancel_left hresp
  · rfl
  · exact hdata
  · exact feed_answer_wellFormed s.crcTable s.rx b

theorem step_answer_wellFormed {s t : State} {r : Request} {rest : List Request} {resp : Response}
    (hp : s.pending = r :: rest) (hstep : step s = .next t) (hresp : t.responses = s.responses ++ [resp]) :
    resp.wellFormed = true := by
  obtain ⟨i, h⟩ | h := step_command_cases hp
  · exact exec_answer_wellFormed (h.symm.trans hstep) hresp
  · cases h.symm.trans hstep
    cases List.append_cancel_left hresp
    rfl

/-! ## What an error answer leaves (R205) -/

/-- `t` is what the rules give for an answer `resp` that is an error: `s` with the answer added, and the receiver cleared where
the error ends a frame. -/
def ErrorIsPrecise (s t : State) (resp : Response) : Prop :=
  (resp.status = .invalidArgument ∨ resp.status = .illegalCommand → t = respond resp.status resp.data s) ∧
  (resp.status = .checksumMismatch ∨ resp.status = .lengthError → t = respond resp.status resp.data (rxClear s))

theorem feedByte_errorIsPrecise (b : Byte) (s : State) :
    ErrorIsPrecise s (feedByte b s) (feed s.crcTable s.rx b).2 := by
  obtain ⟨-, -, h⟩ | ⟨-, -, h⟩ | ⟨-, -, h⟩ | ⟨-, -, h⟩ := feed_answer_cases s.crcTable s.rx b
  · simp [ErrorIsPrecise, h]
  · simp [ErrorIsPrecise, feedByte, h, setReceiver, rxClear]
  · simp [ErrorIsPrecise, feedByte, h, setReceiver, rxClear]
  · simp [ErrorIsPrecise, h, noFrame]

theorem exec_errorIsPrecise {i : Instr} {s t : State} {resp : Response} (he : exec i s = .next t)
    (hresp : t.responses = s.responses ++ [resp]) : ErrorIsPrecise s t resp := by
  obtain ⟨-, -, h⟩ | ⟨-, -, rx, data, -, h⟩ | ⟨b, -, h⟩ := exec_answer_cases i s <;>
    cases h.symm.trans he <;> cases List.append_cancel_left hresp
  · simp [ErrorIsPrecise, raiseInvalidArgument]
  · simp [ErrorIsPrecise]
  · exact feedByte_errorIsPrecise b s

/-! ## The statements -/

/-- Settles O41: the step adds one answer, and every answer is of the form of R200, whatever gave it. -/
theorem everyCommandAnswersExactlyOnce : Obligations.EveryCommandAnswersExactlyOnce := by
  intro s r rest hp
  obtain ⟨rx, resp, hstep⟩ := step_answers hp
  have hwf : resp.wellFormed = true := step_answer_wellFormed hp hstep rfl
  exact ⟨_, resp, hstep, rfl, rfl, Response.data_eq_empty_of_wellFormed hwf, hwf⟩

/-- Settles O42: an error is a refusal, an undefined code, or a frame's bad end, which clears the receiver. -/
theorem errorsArePreciseAndNeverFatal : Obligations.ErrorsArePreciseAndNeverFatal := by
  refine ⟨exists_step, fun s t r rest resp hp hstep hresp => ?_⟩
  change ErrorIsPrecise (setPending rest s) t resp
  obtain ⟨i, h⟩ | h := step_command_cases hp
  · exact exec_errorIsPrecise (h.symm.trans hstep) hresp
  · cases h.symm.trans hstep
    cases List.append_cancel_left hresp
    simp [ErrorIsPrecise, answerIllegalCommand]

/-- Settles O43: the three ways an instruction answers, the third split by how the receiver takes the byte. -/
theorem statusCauses : Obligations.StatusCauses := by
  intro i s
  obtain ⟨hi, hwf, h⟩ | ⟨hi, hwf, rx, data, -, h⟩ | ⟨b, hi, h⟩ := exec_answer_cases i s
  · exact ⟨_, _, h, raiseInvalidArgument_responses s, by simp [hi, hwf]⟩
  · exact ⟨_, _, h, respond_responses .ok data _, by simp [hi, hwf]⟩
  · refine ⟨_, _, h, feedByte_responses b s, ?_⟩
    have hwf := wellFormed_of_fedByte hi
    obtain ⟨hst, hb, hfeed⟩ | ⟨hst, hb, hfeed⟩ | ⟨hst, hb, hfeed⟩ | ⟨hst, hb, hfeed⟩ :=
      feed_answer_cases s.crcTable s.rx b <;> rw [hfeed]
    · simp [hi, hwf, hst, hb]
    · simp [hi, hwf, hst, hb]
    · simp [hi, hwf, hst, hb]
    · simpa [hi, hwf, hst, noFrame] using hb

end Sys2Proof.Machine

/-! # Reset and hazards (70_reset_and_hazards.md)

The layer first: a frame whose checksum byte was computed with another table. After it the statement of the family. -/

namespace Sys2Proof.Machine

/-! ## A peer's frame (R242) -/

/-- A table enters a frame only by its checksum byte: tables that agree on the span's checksum build the same frame. -/
theorem frameBytes_congr {T T' : CrcTable} {func : Byte} {payload : List Byte}
    (h : crc8 T (frameSpan func payload) = crc8 T' (frameSpan func payload)) :
    frameBytes T func payload = frameBytes T' func payload := by
  rw [frameBytes_eq_wireFrame, h, ← frameBytes_eq_wireFrame]

/-- The receiver takes the frame of a peer whose table agrees on the span's checksum as its own, and any other as a frame with a
wrong checksum; either way only the checksum byte's answer tells. -/
theorem feedAll_peerFrameBytes (T peer : CrcTable) {rx : Receiver} (func : Byte) {payload : List Byte}
    (hlen : payload.length ≤ 251) (hst : rx.state = .awaitStart1 ∨ rx.state = .awaitStart2) :
    feedAll T rx (frameBytes peer func payload) = (clearedReceiver, List.replicate (payload.length + 4) noFrame ++
      [if crc8 peer (frameSpan func payload) = crc8 T (frameSpan func payload)
        then { status := .frameReady, data := .frame { function := func, payload := payload } }
        else { status := .checksumMismatch, data := .empty }]) := by
  split
  next hagree => rw [frameBytes_congr hagree, feedAll_frameBytes T func payload hlen hst, frameAnswers]
  next hne => rw [frameBytes_eq_wireFrame, feedAll_wireFrame_of_ne hlen hst hne, mismatchAnswers]

/-! ## The statements -/

/-- Settles O53: the run feeds the peer's frame, and the receiver answers it as its own table reads it. -/
theorem peerWithAnotherTable : Obligations.PeerWithAnotherTable := by
  intro s peer func payload rest hlen hst hp
  have hrun := run_of_feedRequests _ s rest hp
  rw [frameBytes_length, feedAll_peerFrameBytes s.crcTable peer func hlen (.inl hst)] at hrun
  rw [hrun, List.append_assoc]
  rfl

end Sys2Proof.Machine

/-! # The CRC8 generator, over every table and over the default one (40_crc8.md R101 to R107)

The layer first: R101's loop is linear, so the table it generates is; and what a linear table does to a span's checksum. After it
the statements. -/

namespace Sys2Proof.Machine

/-! ## Linear tables -/

/-- A table that maps the XOR of two indices to the XOR of their entries (R107(b)). -/
def LinearTable (T : CrcTable) : Prop := ∀ a b : Byte, tableEntry T (a ^^^ b) = tableEntry T a ^^^ tableEntry T b

section
variable {T : CrcTable} (hT : LinearTable T)
include hT

/-- Entry 0 of a linear table is its own XOR with itself. -/
theorem LinearTable.tableEntry_zero : tableEntry T 0#8 = 0#8 := by
  have h := hT 0#8 0#8
  rwa [BitVec.xor_self, BitVec.xor_self] at h

/-- The update step is linear in accumulator and byte together, and so is the fold. -/
theorem LinearTable.crc8From_zipWith_xor {x y : List Byte} (hlen : x.length = y.length) (a b : Byte) :
    crc8From T (a ^^^ b) (List.zipWith (· ^^^ ·) x y) = crc8From T a x ^^^ crc8From T b y := by
  induction x generalizing y a b with
  | nil =>
    cases List.eq_nil_of_length_eq_zero hlen.symm
    rfl
  | cons c x ih =>
    cases y with
    | nil => cases hlen
    | cons d y =>
      have hupdate : crc8Update T (a ^^^ b) (c ^^^ d) = crc8Update T a c ^^^ crc8Update T b d := by
        rw [crc8Update_eq, crc8Update_eq, crc8Update_eq, ← hT]
        congr 1
        ac_rfl
      rw [List.zipWith_cons_cons, crc8From_cons, hupdate]
      exact ih (Nat.succ.inj hlen) _ _

theorem LinearTable.crc8_replicate_zero (n : Nat) : crc8 T (List.replicate n 0#8) = 0#8 := by
  induction n with
  | zero => rfl
  | succ n ih =>
    rw [List.replicate_succ', crc8_append_singleton, ih, crc8Update_eq, BitVec.xor_self, hT.tableEntry_zero]

end

/-! ## The default table -/

/-- A turn of R101's loop is linear: the shift is, and 0x8C is XORed in once for each of the two low bits. -/
theorem crcShift_xor (a b : Byte) : crcShift (a ^^^ b) = crcShift a ^^^ crcShift b := by
  rw [crcShift, crcShift, crcShift, BitVec.getLsbD_xor, BitVec.ushiftRight_xor_distrib]
  generalize a >>> 1 = x, b >>> 1 = y
  cases a.getLsbD 0 <;> cases b.getLsbD 0
  · rfl
  · exact BitVec.xor_assoc x y 0x8C#8
  · change x ^^^ y ^^^ 0x8C#8 = x ^^^ 0x8C#8 ^^^ y
    ac_rfl
  · have hpair : (x ^^^ 0x8C#8) ^^^ (y ^^^ 0x8C#8) = (x ^^^ y) ^^^ (0x8C#8 ^^^ 0x8C#8) := by ac_rfl
    exact (hpair.trans BitVec.xor_zero).symm

theorem crcLoop_xor (a b : Byte) : crcLoop (a ^^^ b) = crcLoop a ^^^ crcLoop b := by
  simp only [crcLoop, crcShift_xor]

theorem linearTable_dallasMaximTable : LinearTable dallasMaximTable := by
  intro a b
  rw [tableEntry_dallasMaximTable, tableEntry_dallasMaximTable, tableEntry_dallasMaximTable, crcLoop_xor]

theorem tableEntry_dallasMaximTable_bijective : Function.Bijective (tableEntry dallasMaximTable) :=
  Finite.injective_iff_bijective.mp tableEntry_dallasMaximTable_injective

/-- Under the default table a span's checksum changes with any one of its bytes. -/
theorem crc8_dallasMaximTable_set_ne (data : List Byte) {i : Nat} {b : Byte} (hi : i < data.length) (hb : b ≠ data[i]) :
    crc8 dallasMaximTable (data.set i b) ≠ crc8 dallasMaximTable data :=
  crc8From_set_ne tableEntry_dallasMaximTable_injective data 0#8 hi hb

/-! ## The statements -/

/-- Settles O16: a span with one bit flipped differs from it in one byte, and the one-bit pattern is such a span of zeros, whose
checksum is 0. -/
theorem dallasChecksumSeesEverySingleBit : Obligations.DallasChecksumSeesEverySingleBit := by
  intro data i k hi _
  constructor
  · have hlt : i < (List.replicate data.length 0#8).length := by rwa [List.length_replicate]
    have hbit : 1#8 <<< k.val ≠ (List.replicate data.length 0#8)[i] := by
      simpa using xor_bit_ne 0#8 k
    have hne := crc8_dallasMaximTable_set_ne _ hlt hbit
    rwa [linearTable_dallasMaximTable.crc8_replicate_zero] at hne
  · rw [List.getD_eq_getElem _ _ hi]
    exact crc8_dallasMaximTable_set_ne data hi (xor_bit_ne _ k)

/-- Settles O15: the fold over a linear table, from accumulator `0 = 0 XOR 0`. -/
theorem dallasChecksumIsLinear : Obligations.DallasChecksumIsLinear :=
  fun _ _ hlen => linearTable_dallasMaximTable.crc8From_zipWith_xor hlen 0#8 0#8

/-- Settles O14: the table is linear because R101's loop is, and one-to-one, hence onto, because the loop runs backwards. -/
theorem dallasTableIsALinearPermutation : Obligations.DallasTableIsALinearPermutation :=
  ⟨linearTable_dallasMaximTable.tableEntry_zero, linearTable_dallasMaximTable, tableEntry_dallasMaximTable_bijective⟩

/-- Settles O13: both look at the XOR of accumulator and byte, and every printed entry is the loop's. -/
theorem dallasTableIsTheShiftLoop : Obligations.DallasTableIsTheShiftLoop :=
  fun acc b => tableEntry_dallasMaximTable (acc ^^^ b)

/-- Settles O11: the fold over a concatenation. -/
theorem checksumExtendsByteByByte : Obligations.ChecksumExtendsByteByByte := by
  intro T x y b
  refine ⟨crc8_append_singleton T x b, ?_⟩
  rw [crc8, crc8From_append, crc8From_eq_foldl T _ y, crc8]

/-- Settles O12: no update, the one update at `0 XOR b`, and a last update at the checksum XORed with itself. -/
theorem spanWithItsOwnChecksum : Obligations.SpanWithItsOwnChecksum := by
  intro T
  refine ⟨rfl, fun b => ?_, crc8_append_own_checksum T⟩
  rw [crc8, crc8From_cons, crc8From_nil, crc8Update_eq, BitVec.zero_xor]

end Sys2Proof.Machine

/-! # The decoder and the step (30_encoding.md R64, R70, R71)

The layer first: which codes are commands, which bytes are function rows, what the receiver's phase changes about a decoded
command, and the encoder's request for what was decoded. After it the words of the opcode table, and the statements. -/

namespace Sys2Proof.Machine

/-! ## Command codes -/

/-- R71: exactly the codes 0x01..0x07 are commands. -/
theorem exists_decodeCommand_iff (r : Request) :
    (∃ i, decodeCommand r = .ok i) ↔ 1 ≤ r.code.toNat ∧ r.code.toNat ≤ 7 := by
  unfold decodeCommand
  split
  case h_8 =>
    refine iff_of_false nofun ?_
    rintro ⟨hmin, hmax⟩
    interval_cases r.code.toNat <;> contradiction
  all_goals simp [*]

theorem exists_decodeCommand_error_iff (r : Request) :
    (∃ e, decodeCommand r = .error e) ↔ r.code = 0x00#8 ∨ 0x08 ≤ r.code.toNat := by
  have hdefined := exists_decodeCommand_iff r
  cases hd : decodeCommand r with
  | ok i =>
    have hcode := hdefined.mp ⟨i, hd⟩
    exact iff_of_false nofun (by bv_omega)
  | error e =>
    have hcode : ¬ (1 ≤ r.code.toNat ∧ r.code.toNat ≤ 7) := by simp [← hdefined, hd]
    exact iff_of_true ⟨e, rfl⟩ (by bv_omega)

/-! ## Function rows -/

theorem decodeFunctionByte_of_mem : ∀ p ∈ functionRows, decodeFunctionByte p.1 = some p.2 := by decide

theorem mem_functionRows_of_decodeFunctionByte {b : Byte} {i : Instr} (h : decodeFunctionByte b = some i) :
    (b, i) ∈ functionRows := by
  obtain ⟨before, after, hrows, -⟩ := List.lookup_eq_some_iff.mp h
  simp [hrows]

/-- R64: the function codes are 0x01..0x0B. -/
theorem code_of_decodeFunctionByte {b : Byte} {i : Instr} (h : decodeFunctionByte b = some i) :
    1 ≤ b.toNat ∧ b.toNat ≤ 11 := by
  have hrows : ∀ p ∈ functionRows, 1 ≤ p.1.toNat ∧ p.1.toNat ≤ 11 := by decide
  exact hrows _ (mem_functionRows_of_decodeFunctionByte h)

theorem decodeFunctionByte_eq_none {b : Byte} (h : b = 0x00#8 ∨ 0x0C ≤ b.toNat) : decodeFunctionByte b = none := by
  refine Option.eq_none_iff_forall_ne_some.mpr fun i hi => ?_
  have hcode := code_of_decodeFunctionByte hi
  bv_omega

/-! ## The phase of the receiver -/

theorem decode_of_decodeCommand {r : Request} {i : Instr} (phase : RxState) (h : decodeCommand r = .ok i) :
    decode phase r = .ok (atFunctionOffset phase i) := by
  rw [decode, h]

theorem decode_of_decodeCommand_error {r : Request} {e : DecodeError} (phase : RxState) (h : decodeCommand r = .error e) :
    decode phase r = .error e := by
  rw [decode, h]

/-- Only a byte fed in `AWAIT_FUNCTION` is read under a function row. -/
theorem atFunctionOffset_eq_self {phase : RxState} {i : Instr} (h : phase ≠ .awaitFunction ∨ ∀ b, i ≠ .rxFeed b) :
    atFunctionOffset phase i = i := by
  unfold atFunctionOffset
  split
  · simp at h
  · rfl

/-- A command other than `RX_FEED` is the same in every phase. -/
theorem decode_of_ne_rxFeed {r : Request} {i : Instr} (phase : RxState) (h : decodeCommand r = .ok i)
    (hi : ∀ b, i ≠ .rxFeed b) : decode phase r = .ok i := by
  rw [decode_of_decodeCommand phase h, atFunctionOffset_eq_self (.inr hi)]

theorem decode_rxFeed_at_functionOffset (o : Operands) :
    decode .awaitFunction { code := 0x05#8, operands := o } = .ok ((decodeFunctionByte o.byte).getD (.rxFeed o.byte)) := rfl

theorem decode_rxFeed_of_row {o : Operands} {i : Instr} (h : decodeFunctionByte o.byte = some i) :
    decode .awaitFunction { code := 0x05#8, operands := o } = .ok i := by
  rw [decode_rxFeed_at_functionOffset, h, Option.getD_some]

/-! ## The encoder's request for what was decoded -/

theorem encode_of_decodeFunctionByte {b : Byte} {i : Instr} (h : decodeFunctionByte b = some i) :
    encode i = feedRequest b := by
  have hrows : ∀ p ∈ functionRows, encode p.2 = feedRequest p.1 := by decide
  exact hrows _ (mem_functionRows_of_decodeFunctionByte h)

/-- Reading a fed byte under its function row loses nothing: both are encoded alike. -/
theorem encode_atFunctionOffset (phase : RxState) (i : Instr) : encode (atFunctionOffset phase i) = encode i := by
  unfold atFunctionOffset
  split
  next b =>
    cases h : decodeFunctionByte b with
    | none => rfl
    | some row => exact encode_of_decodeFunctionByte h
  next => rfl

theorem request_mk_eq {r : Request} {code : Byte} {o : Operands} (hcode : r.code.toNat = code.toNat) (ho : r.operands = o) :
    ({ code := code, operands := o } : Request) = r :=
  ho ▸ congrArg (Request.mk · r.operands) (BitVec.eq_of_toNat_eq hcode.symm)

/-- A canonical request fills no lane but those its command reads, so the encoder writes it back. -/
theorem encode_of_decodeCommand {r : Request} {i : Instr} (hr : r.canonical = true) (h : decodeCommand r = .ok i) :
    encode i = r := by
  unfold decodeCommand at h
  split at h <;> cases h
  all_goals
    rename_i hcode
    simp only [Request.canonical, hcode, beq_iff_eq] at hr
    exact request_mk_eq hcode hr

/-! ## The words of the opcode table (log 6) -/

/-- The command a word stands for where it is a command code: its low eight bits, with no operands. -/
def tableCommand (w : Nat) : Request := { code := BitVec.ofNat 8 w, operands := Operands.none }

theorem tableWordLayout_of_command {w : Nat} {i : Instr} (h : decodeCommand (tableCommand w) = .ok i) :
    tableWordLayout w = (.awaitStart1, tableCommand w) := by
  rw [tableCommand] at h ⊢
  simp only [tableWordLayout, h]

theorem tableWordLayout_of_function {w : Nat} {e : DecodeError} {i : Instr}
    (hcommand : decodeCommand (tableCommand w) = .error e) (h : decodeFunctionByte (BitVec.ofNat 8 w) = some i) :
    tableWordLayout w = (.awaitFunction, feedRequest (BitVec.ofNat 8 w)) := by
  rw [tableCommand] at hcommand
  simp only [tableWordLayout, hcommand, h]

theorem tableWordLayout_of_neither {w : Nat} {e : DecodeError}
    (hcommand : decodeCommand (tableCommand w) = .error e) (h : decodeFunctionByte (BitVec.ofNat 8 w) = none) :
    tableWordLayout w = (.awaitStart1, tableCommand w) := by
  rw [tableCommand] at hcommand ⊢
  simp only [tableWordLayout, hcommand, h]

theorem decodeTableWord_of_layout {w : Nat} {phase : RxState} {r : Request} (nbits : Nat)
    (h : tableWordLayout w = (phase, r)) : decodeTableWord nbits w = (decode phase r).toOption := by
  unfold decodeTableWord
  rw [h]
  cases decode phase r <;> rfl

/-- A word is read as a command where it is one, else as a function byte where it is one, else not at all. -/
theorem decodeTableWord_cases {nbits w : Nat} {i : Instr} (h : decodeTableWord nbits w = some i) :
    (decodeCommand (tableCommand w) = .ok i ∧ tableWordLayout w = (.awaitStart1, tableCommand w)) ∨
    (∃ e, decodeCommand (tableCommand w) = .error e) ∧ decodeFunctionByte (BitVec.ofNat 8 w) = some i ∧
      tableWordLayout w = (.awaitFunction, feedRequest (BitVec.ofNat 8 w)) := by
  cases hcommand : decodeCommand (tableCommand w) with
  | ok command =>
    have hlayout := tableWordLayout_of_command hcommand
    rw [decodeTableWord_of_layout nbits hlayout, decode_of_decodeCommand _ hcommand,
      atFunctionOffset_eq_self (phase := .awaitStart1) (.inl nofun)] at h
    cases h
    exact .inl ⟨rfl, hlayout⟩
  | error e =>
    cases hrow : decodeFunctionByte (BitVec.ofNat 8 w) with
    | some row =>
      have hlayout := tableWordLayout_of_function hcommand hrow
      rw [decodeTableWord_of_layout nbits hlayout, feedRequest, decode_rxFeed_of_row hrow] at h
      cases h
      exact .inr ⟨⟨e, rfl⟩, rfl, hlayout⟩
    | none =>
      rw [decodeTableWord_of_layout nbits (tableWordLayout_of_neither hcommand hrow),
        decode_of_decodeCommand_error _ hcommand] at h
      cases h

/-! ## The statements -/

/-- Settles O7: the codes that are no command decode to nothing in every phase, and the step answers so. -/
theorem undefinedCodeAnswersIllegalCommand : Obligations.UndefinedCodeAnswersIllegalCommand := by
  intro s r rest hp hcode
  obtain ⟨e, he⟩ := (exists_decodeCommand_error_iff r).mpr hcode
  exact step_of_illegal hp (decode_of_decodeCommand_error _ he)

/-- Settles O4: the phase does not change what is encoded, and the command is the one the request was written for. -/
theorem encodeOfDecode : Obligations.EncodeOfDecode := by
  intro phase r i hr h
  cases hcommand : decodeCommand r with
  | ok command =>
    rw [decode_of_decodeCommand phase hcommand] at h
    cases h
    rw [encode_atFunctionOffset, encode_of_decodeCommand hr hcommand]
  | error e =>
    rw [decode_of_decodeCommand_error phase hcommand] at h
    cases h

/-- Settles O1: six commands are the same in every phase, and `RX_FEED` is one outside `AWAIT_FUNCTION`. -/
theorem commandCodesDecodeToTheirRows : Obligations.CommandCodesDecodeToTheirRows := by
  intro phase o
  refine ⟨?_, ?_, ?_, ?_, fun hphase => ?_, ?_, ?_⟩
  case refine_5 => rw [decode_of_decodeCommand phase rfl, atFunctionOffset_eq_self (.inl hphase)]; rfl
  all_goals exact decode_of_ne_rxFeed phase rfl nofun

/-- Settles O2: the byte's row where the table has one, and `RX_FEED` where it has none. -/
theorem functionBytesDecodeToTheirRows : Obligations.FunctionBytesDecodeToTheirRows := by
  refine ⟨fun p hp o hbyte => ?_, fun o hbyte => ?_⟩
  · exact decode_rxFeed_of_row (hbyte ▸ decodeFunctionByte_of_mem p hp)
  · rw [decode_rxFeed_at_functionOffset, decodeFunctionByte_eq_none hbyte, Option.getD_none]

/-- Settles O3: a command's request is met in `AWAIT_START1`, where the phase changes nothing; a row's is the feed of its byte. -/
theorem decodeOfEncode : Obligations.DecodeOfEncode := by
  intro i
  cases i
  case crc8 | encode | rgbEncode | rgbDecode | rxFeed | rxReset | rxState => rfl
  all_goals exact decode_rxFeed_of_row (decodeFunctionByte_of_mem (_, _) (by decide))

/-- Settles O5: taking the command is `setPending`. -/
theorem stepRunsTheDecodedInstruction : Obligations.StepRunsTheDecodedInstruction :=
  fun _ _ _ _ hp hd => step_of_decode hp hd

/-- Settles O6: the step's own case for an empty port. -/
theorem blockWaitsWithoutCommand : Obligations.BlockWaitsWithoutCommand :=
  fun _ hp => step_of_empty hp

/-- Settles O8: the decoder on each word. -/
theorem tableWordsDecodeToTheirRows : Obligations.TableWordsDecodeToTheirRows := by
  unfold Obligations.TableWordsDecodeToTheirRows
  decide

/-- Settles O9: a command word is taken from the port in the state as it was, a function byte with the receiver at offset 2. -/
theorem tableWordIsRunByTheNextStep : Obligations.TableWordIsRunByTheNextStep := by
  intro s nbits w i h
  have hbyte : (BitVec.ofNat 8 w).toNat = w % 256 := BitVec.toNat_ofNat w 8
  obtain ⟨hcommand, hlayout⟩ | ⟨hundefined, hrow, hlayout⟩ := decodeTableWord_cases h
  · have hcode : 1 ≤ (BitVec.ofNat 8 w).toNat ∧ (BitVec.ofNat 8 w).toNat ≤ 7 :=
      (exists_decodeCommand_iff (tableCommand w)).mp ⟨i, hcommand⟩
    refine ⟨by omega, by omega, fun _ => ?_, by omega⟩
    rw [State.withFetchWord, placeTableWord, hlayout]
    exact step_of_decodeCommand (placeRequest_pending _ s) hcommand
  · have hcode := code_of_decodeFunctionByte hrow
    have hcode' : BitVec.ofNat 8 w = 0x00#8 ∨ 8 ≤ (BitVec.ofNat 8 w).toNat :=
      (exists_decodeCommand_error_iff (tableCommand w)).mp hundefined
    have hmin : 8 ≤ (BitVec.ofNat 8 w).toNat := by bv_omega
    refine ⟨by omega, by omega, by omega, fun _ => ?_⟩
    rw [State.withFetchWord, placeTableWord, hlayout]
    exact step_of_decode (placeRequest_pending _ (atFunctionByte s)) (decode_rxFeed_of_row hrow)

end Sys2Proof.Machine

/-! # The RGB payload by its offsets (42_rgb_payload.md R140, R145)

The layer first: the two checks as the rules state them, and the pixels of a payload at their offsets. After it the statements. -/

namespace Sys2Proof.Machine

/-- R140's refusal as it is written: too many pixels, or an id outside 1..256. -/
theorem rgbEncodeRefuses_eq_true_iff (pixels : List Pixel) :
    rgbEncodeRefuses pixels = true ↔ 62 < pixels.length ∨ ∃ p ∈ pixels, p.id < 1 ∨ 256 < p.id := by
  simp [rgbEncodeRefuses, idRefused]

/-- R145's acceptance by offsets: the tag at 0, the count at 1, and the length the count gives. -/
theorem rgbDecodeRefuses_eq_false_iff_offsets (payload : List Byte) :
    rgbDecodeRefuses payload = false ↔ payload.getD 0 0#8 = 0x01#8 ∧ (payload.getD 1 0#8).toNat ≤ 62 ∧
      payload.length = 2 + 4 * (payload.getD 1 0#8).toNat := by
  match payload with
  | [] | [_] => simp [rgbDecodeRefuses]
  | tag :: count :: entries => simp [rgbDecodeRefuses, and_assoc]

/-- Entry `i` of a list of four-byte entries, each byte read at its offset (30_encoding.md R67). -/
def pixelAt (entries : List Byte) (i : Nat) : Pixel where
  id := (entries.getD (4 * i) 0#8).toNat + 1
  r := entries.getD (4 * i + 1) 0#8
  g := entries.getD (4 * i + 2) 0#8
  b := entries.getD (4 * i + 3) 0#8

theorem readPixels_eq_map_pixelAt {entries : List Byte} {n : Nat} (hlen : entries.length = 4 * n) :
    readPixels entries = (List.range n).map (pixelAt entries) := by
  induction n generalizing entries with
  | zero =>
    cases List.eq_nil_of_length_eq_zero hlen
    rfl
  | succ n ih =>
    match entries, hlen with
    | w :: r :: g :: b :: rest, hlen =>
      have hrest : rest.length = 4 * n := Nat.add_right_cancel (m := 4) hlen
      rw [readPixels, ih hrest, List.range_succ_eq_map, List.map_cons, List.map_map]
      rfl

/-! ## The answers of `RGB_DECODE` -/

theorem exec_rgbDecode_accepted {payload : List Byte} (s : State) (h : rgbDecodeRefuses payload = false) :
    exec (.rgbDecode payload) s = .next (respond .ok (.pixels (readPixels (payload.drop 2))) s) := by
  rw [exec_rgbDecode, h]
  rfl

theorem exec_rgbDecode_refused {payload : List Byte} (s : State) (h : rgbDecodeRefuses payload = true) :
    exec (.rgbDecode payload) s = .next (raiseInvalidArgument s) := by
  rw [exec_rgbDecode, if_pos h]

/-! ## The statements -/

/-- Settles O23: the check by offsets decides, and an accepted payload is two bytes and `n` entries. -/
theorem rgbDecodeReadsThePixels : Obligations.RgbDecodeReadsThePixels := by
  rintro payload n s rfl
  have hcheck := rgbDecodeRefuses_eq_false_iff_offsets payload
  constructor
  · intro hbad
    refine exec_rgbDecode_refused s (Bool.not_eq_false _ |>.mp fun hok => ?_)
    obtain ⟨htag, hcount, hlen⟩ := hcheck.mp hok
    obtain hbad | hbad | hbad | hbad := hbad
    · omega
    · exact hbad htag
    · omega
    · exact hbad hlen
  · intro htag hcount hlen
    have hentries : (payload.drop 2).length = 4 * (payload.getD 1 0#8).toNat := by rw [List.length_drop]; omega
    rw [exec_rgbDecode_accepted s (hcheck.mpr ⟨htag, hcount, hlen⟩), readPixels_eq_map_pixelAt hentries]
    simp [respond, pixelAt, List.getElem?_drop, ← Nat.add_assoc, Nat.add_comm]

/-- Settles O22: R140's check decides, and an accepted list gives its payload. -/
theorem rgbEncodeBuildsThePayload : Obligations.RgbEncodeBuildsThePayload := by
  intro pixels s
  constructor
  · exact fun hbad => exec_rgbEncode_refused s ((rgbEncodeRefuses_eq_true_iff pixels).mpr hbad)
  · intro hlen hids
    have hok := (rgbEncodeRefuses_eq_false_iff pixels).mpr ⟨hlen, hids⟩
    exact ⟨rgbPayload pixels, exec_rgbEncode_accepted s hok, rgbPayload_length pixels, rfl⟩

end Sys2Proof.Machine

/-! # Function rows at wire frame offset 2, codes, and reset (30_encoding.md R64, R65; 60_exceptions.md R201; 10_state.md R30) -/

namespace Sys2Proof.Machine

/-- A status read back from its code (60_exceptions.md R201). -/
def statusOfCode (code : Byte) : Status :=
  match code.toNat with
  | 0 => .ok
  | 1 => .invalidArgument
  | 2 => .noFrame
  | 3 => .frameReady
  | 4 => .checksumMismatch
  | 5 => .lengthError
  | _ => .illegalCommand

theorem statusOfCode_statusCode : Function.LeftInverse statusOfCode statusCode := by
  intro status
  cases status <;> rfl

/-- R65: what is not one of the codes 0x01..0x0B is unknown. -/
theorem classify_eq_unknown {code : Byte} (h : code = 0x00#8 ∨ 0x0C ≤ code.toNat) : classify code = .unknown := by
  unfold classify
  split
  case h_12 => rfl
  all_goals bv_omega

/-! ## The statements -/

/-- Settles O29: a row runs as the feed of its byte, which `AWAIT_FUNCTION` takes as the function code. -/
theorem functionRowsAreTakenAtOffsetTwo : Obligations.FunctionRowsAreTakenAtOffsetTwo := by
  intro p hp s hst
  have hrow : decodeFunctionByte p.1 = some p.2 := decodeFunctionByte_of_mem p hp
  exact (exec_of_decodeFunctionByte s hrow).trans (feedInAwaitFunction p.1 s hst)

/-- Settles O37: reset's own fields. -/
theorem resetState : Obligations.ResetState := ⟨rfl, rfl, rfl, rfl⟩

/-- Settles O46: the codes as listed, from each of which its status can be read back. -/
theorem statusCodes : Obligations.StatusCodes :=
  ⟨rfl, rfl, rfl, rfl, rfl, rfl, rfl, statusOfCode_statusCode.injective⟩

/-- Settles O47: the eleven names, and the default for every other byte. -/
theorem classifyEveryByte : Obligations.ClassifyEveryByte :=
  ⟨rfl, rfl, rfl, rfl, rfl, rfl, rfl, rfl, rfl, rfl, rfl, fun _ => classify_eq_unknown⟩

end Sys2Proof.Machine
